-- ==== Sys2Proof/Word.lean ====
section
/-! DEFINITION. The 12-bit word of the machine and the 13-bit combined value. -/

namespace Sys2Proof

/-- A Word: a 12-bit quantity, arithmetic modulo 4096 (00_scope.md R6). Registers, memory words,
addresses and instruction words are all Words. -/
abbrev Word := BitVec 12

/-- The 13-bit combined accumulator and link value (00_scope.md R9). -/
abbrev Combined := BitVec 13

/-- `mask12` of 00_scope.md R6: a natural number reduced modulo 4096. -/
def mask12 (n : Nat) : Word := BitVec.ofNat 12 n

end Sys2Proof
end

