-- ==== Sys2Proof/Syntax.lean ====
section
/-! DEFINITION. The instructions: one constructor per row of spec/opcode_table.json. -/

namespace Sys2Proof

/-- The address part of a memory-reference word (30_encoding.md R82). -/
structure MemRef where
  /-- DEC bit 3, `w[8]`. -/
  indirect : Bool
  /-- DEC bit 4, `w[7]`: current page when set, page zero when clear. -/
  page : Bool
  /-- DEC bits 5 to 11, `w[6:0]`, unsigned. -/
  offset : BitVec 7
deriving DecidableEq, Repr

/-- The eight flags of an operate group 1 word (30_encoding.md R90), from DEC bit 4 to DEC bit 11. -/
structure Group1Flags where
  /-- clear accumulator -/
  cla : Bool := false
  /-- clear link -/
  cll : Bool := false
  /-- complement accumulator -/
  cma : Bool := false
  /-- complement link -/
  cml : Bool := false
  /-- rotate right -/
  rar : Bool := false
  /-- rotate left -/
  ral : Bool := false
  /-- rotate twice -/
  two : Bool := false
  /-- increment accumulator -/
  iac : Bool := false
deriving DecidableEq, Repr

/-- The seven flags of an operate group 2 word (30_encoding.md R91), from DEC bit 4 to DEC bit 10.
The three test bits are read under two senses (R93). -/
structure Group2Flags where
  /-- clear accumulator -/
  cla : Bool := false
  /-- sign test: SMA, or SPA when inverted -/
  sma : Bool := false
  /-- zero test: SZA, or SNA when inverted -/
  sza : Bool := false
  /-- link test: SNL, or SZL when inverted -/
  snl : Bool := false
  /-- invert sense -/
  inv : Bool := false
  /-- OR the switch register -/
  osr : Bool := false
  /-- halt -/
  hlt : Bool := false
deriving DecidableEq, Repr

/-- The instructions. The first twelve constructors are the decode classes of 30_encoding.md R86.
The others are the table's microinstruction and combination rows: each stands for the operate word in
which exactly that row's flags are set, `bothRotateDirections` for all 64 words of its row; `opr1`,
`opr2` and `opr3` stand for the operate words no other row names (DESIGN CHOICE, safe, log 16). -/
inductive Instr where
  /-- AND, R121 -/
  | and (m : MemRef)
  /-- TAD, R122 -/
  | tad (m : MemRef)
  /-- ISZ, R123 -/
  | isz (m : MemRef)
  /-- DCA, R124 -/
  | dca (m : MemRef)
  /-- JMS, R125 -/
  | jms (m : MemRef)
  /-- JMP, R126 -/
  | jmp (m : MemRef)
  /-- ION, interrupt system on, R141 -/
  | ion
  /-- IOF, interrupt system off, R142 -/
  | iof
  /-- IOT, every other opcode-6 word, R143; `code` is `w[8:0]` (R83) -/
  | iot (code : BitVec 9)
  /-- OPR1, operate group 1, R152 -/
  | opr1 (f : Group1Flags)
  /-- OPR2, operate group 2, R168 -/
  | opr2 (f : Group2Flags)
  /-- OPR3, operate group 3, R183; `ext` is `g3_ext`, `w[6:1]` (R92) -/
  | opr3 (cla : Bool) (ext : BitVec 6)
  /-- CLA of group 1, R153 -/
  | cla
  /-- CLL, R154 -/
  | cll
  /-- CMA, R155 -/
  | cma
  /-- CML, R156 -/
  | cml
  /-- IAC, R157 -/
  | iac
  /-- RAR, R158 -/
  | rar
  /-- RAL, R159 -/
  | ral
  /-- RTR, R160 -/
  | rtr
  /-- RTL, R161 -/
  | rtl
  /-- the twice flag alone, R162 -/
  | twiceFlagAlone
  /-- both rotate directions, with any of the other flags, R164 -/
  | bothRotateDirections (cla cll cma cml two iac : Bool)
  /-- SMA, R171 -/
  | sma
  /-- SZA, R172 -/
  | sza
  /-- SNL, R170 -/
  | snl
  /-- SPA, R174 -/
  | spa
  /-- SNA, R175 -/
  | sna
  /-- SZL, R173 -/
  | szl
  /-- SKP, R176 -/
  | skp
  /-- CLA of group 2, R178 -/
  | claGroup2
  /-- OSR, R179 -/
  | osr
  /-- HLT, R180 -/
  | hlt
  /-- CLA of group 3, R184 -/
  | claGroup3
  /-- NOP, R163 -/
  | nop
  /-- CLA CLL, R186 -/
  | claCll
  /-- CIA, that is CMA IAC, R186 -/
  | cia
  /-- STA, that is CLA CMA, R186 -/
  | sta
  /-- STL, that is CLL CML, R186 -/
  | stl
  /-- GLK, that is CLA RAL, R186 -/
  | glk
  /-- CLA IAC, R186 -/
  | claIac
  /-- CLL RAL, R186 -/
  | cllRal
  /-- CLL RAR, R186 -/
  | cllRar
  /-- IAC RAL, R186 -/
  | iacRal
  /-- the group 2 word with no flag, R181 -/
  | group2NoFlag
  /-- LAS, that is CLA OSR, R186 -/
  | las
  /-- SZA CLA, R186 -/
  | szaCla
  /-- SNA CLA, R103 -/
  | snaCla
  /-- SMA CLA, R103 -/
  | smaCla
  /-- SPA CLA, R103 -/
  | spaCla
  /-- CLA OSR HLT, R186 -/
  | claOsrHlt
  /-- SKP HLT, R186 -/
  | skpHlt
deriving DecidableEq, Repr

/-- The twelve decode classes of 30_encoding.md R86. -/
inductive DecodeClass where
  | and | tad | isz | dca | jms | jmp | ion | iof | iot | opr1 | opr2 | opr3
deriving DecidableEq, Repr

/-- The decode class an instruction belongs to. -/
def Instr.decodeClass : Instr → DecodeClass
  | .and _ => .and
  | .tad _ => .tad
  | .isz _ => .isz
  | .dca _ => .dca
  | .jms _ => .jms
  | .jmp _ => .jmp
  | .ion => .ion
  | .iof => .iof
  | .iot _ => .iot
  | .opr1 _ | .cla | .cll | .cma | .cml | .iac | .rar | .ral | .rtr | .rtl | .twiceFlagAlone => .opr1
  | .bothRotateDirections _ _ _ _ _ _ | .nop | .claCll | .cia | .sta | .stl | .glk => .opr1
  | .claIac | .cllRal | .cllRar | .iacRal => .opr1
  | .opr2 _ | .sma | .sza | .snl | .spa | .sna | .szl | .skp | .claGroup2 | .osr | .hlt => .opr2
  | .group2NoFlag | .las | .szaCla | .snaCla | .smaCla | .spaCla | .claOsrHlt | .skpHlt => .opr2
  | .opr3 _ _ | .claGroup3 => .opr3

end Sys2Proof
end

