-- ==== Sys2Proof/Decode.lean ====
section
/-! DEFINITION. The decoder and the encoder (30_encoding.md).

Bit numbering: `w[i]` of the spec is `w.getLsbD i` (00_scope.md R7); DEC bit `n` is `decBit w n` (R8). -/

namespace Sys2Proof

/-- DEC bit `n` of a word: bit 0 is the most significant (00_scope.md R8). -/
def decBit (w : Word) (n : Nat) : Bool := w.getLsbD (11 - n)

/-! ## Parameters of the encoding -/

/-- `ION_WORD` (R88). PRESUMED by the spec from the family (92_eei_decisions.md D2), unsafe (log 2). -/
def ionWord : Word := 0o6001#12
/-- `IOF_WORD` (R88). PRESUMED by the spec from the family (D2), unsafe (log 2). -/
def iofWord : Word := 0o6002#12

/-! The DEC bit positions of the operate flags (R90, R91, R92). PRESUMED by the spec from the family
(92_eei_decisions.md D3), unsafe (log 3). -/

/-- `g1_cla` -/
def g1ClaBit : Nat := 4
/-- `g1_cll` -/
def g1CllBit : Nat := 5
/-- `g1_cma` -/
def g1CmaBit : Nat := 6
/-- `g1_cml` -/
def g1CmlBit : Nat := 7
/-- `g1_rar` -/
def g1RarBit : Nat := 8
/-- `g1_ral` -/
def g1RalBit : Nat := 9
/-- `g1_two` -/
def g1TwoBit : Nat := 10
/-- `g1_iac` -/
def g1IacBit : Nat := 11
/-- `g2_cla` -/
def g2ClaBit : Nat := 4
/-- `g2_sma` -/
def g2SmaBit : Nat := 5
/-- `g2_sza` -/
def g2SzaBit : Nat := 6
/-- `g2_snl` -/
def g2SnlBit : Nat := 7
/-- `g2_inv` -/
def g2InvBit : Nat := 8
/-- `g2_osr` -/
def g2OsrBit : Nat := 9
/-- `g2_hlt` -/
def g2HltBit : Nat := 10
/-- `g3_cla` -/
def g3ClaBit : Nat := 4

/-! ## The rows of the table that name operate words -/

/-- The group 1 flags an instruction of class OPR1 sets (30_encoding.md R90, R103). -/
def Instr.group1Flags? : Instr → Option Group1Flags
  | .opr1 f => some f
  | .cla => some { cla := true }
  | .cll => some { cll := true }
  | .cma => some { cma := true }
  | .cml => some { cml := true }
  | .iac => some { iac := true }
  | .rar => some { rar := true }
  | .ral => some { ral := true }
  | .rtr => some { rar := true, two := true }
  | .rtl => some { ral := true, two := true }
  | .twiceFlagAlone => some { two := true }
  | .bothRotateDirections a l m k w n => some ⟨a, l, m, k, true, true, w, n⟩
  | .nop => some {}
  | .claCll => some { cla := true, cll := true }
  | .cia => some { cma := true, iac := true }
  | .sta => some { cla := true, cma := true }
  | .stl => some { cll := true, cml := true }
  | .glk => some { cla := true, ral := true }
  | .claIac => some { cla := true, iac := true }
  | .cllRal => some { cll := true, ral := true }
  | .cllRar => some { cll := true, rar := true }
  | .iacRal => some { iac := true, ral := true }
  | _ => none

/-- The group 2 flags an instruction of class OPR2 sets (30_encoding.md R91, R93, R103). -/
def Instr.group2Flags? : Instr → Option Group2Flags
  | .opr2 f => some f
  | .sma => some { sma := true }
  | .sza => some { sza := true }
  | .snl => some { snl := true }
  | .spa => some { sma := true, inv := true }
  | .sna => some { sza := true, inv := true }
  | .szl => some { snl := true, inv := true }
  | .skp => some { inv := true }
  | .claGroup2 => some { cla := true }
  | .osr => some { osr := true }
  | .hlt => some { hlt := true }
  | .group2NoFlag => some {}
  | .las => some { cla := true, osr := true }
  | .szaCla => some { sza := true, cla := true }
  | .snaCla => some { sza := true, inv := true, cla := true }
  | .smaCla => some { sma := true, cla := true }
  | .spaCla => some { sma := true, inv := true, cla := true }
  | .claOsrHlt => some { cla := true, osr := true, hlt := true }
  | .skpHlt => some { inv := true, hlt := true }
  | _ => none

/-- The rows that name one word of group 1 each. -/
def namedGroup1 : List Instr :=
  [.cla, .cll, .cma, .cml, .iac, .rar, .ral, .rtr, .rtl, .twiceFlagAlone, .nop, .claCll, .cia, .sta,
    .stl, .glk, .claIac, .cllRal, .cllRar, .iacRal]

/-- The rows that name one word of group 2 each. -/
def namedGroup2 : List Instr :=
  [.sma, .sza, .snl, .spa, .sna, .szl, .skp, .claGroup2, .osr, .hlt, .group2NoFlag, .las, .szaCla,
    .snaCla, .smaCla, .spaCla, .claOsrHlt, .skpHlt]

/-- The row of a set of group 1 flags: both directions first (R164), then the row that names exactly
these flags, else OPR1. -/
def Group1Flags.toInstr (f : Group1Flags) : Instr :=
  if f.rar && f.ral then .bothRotateDirections f.cla f.cll f.cma f.cml f.two f.iac
  else (namedGroup1.find? fun i => i.group1Flags? == some f).getD (.opr1 f)

/-- The row of a set of group 2 flags: the row that names exactly these flags, else OPR2. -/
def Group2Flags.toInstr (f : Group2Flags) : Instr :=
  (namedGroup2.find? fun i => i.group2Flags? == some f).getD (.opr2 f)

/-- The row of a group 3 word: CLA alone, else OPR3 (R92). -/
def group3Instr (cla : Bool) (ext : BitVec 6) : Instr :=
  if cla && ext == 0 then .claGroup3 else .opr3 cla ext

/-! ## The decoder -/

/-- The opcode field, DEC bits 0 to 2 (R81). -/
def opcodeField (w : Word) : BitVec 3 := w.extractLsb' 9 3

/-- The fields of a memory-reference word (R82). -/
def memRefField (w : Word) : MemRef := ⟨decBit w 3, decBit w 4, w.extractLsb' 0 7⟩

/-- The flags of a group 1 word (R90). -/
def group1Field (w : Word) : Group1Flags where
  cla := decBit w g1ClaBit
  cll := decBit w g1CllBit
  cma := decBit w g1CmaBit
  cml := decBit w g1CmlBit
  rar := decBit w g1RarBit
  ral := decBit w g1RalBit
  two := decBit w g1TwoBit
  iac := decBit w g1IacBit

/-- The flags of a group 2 word (R91). -/
def group2Field (w : Word) : Group2Flags where
  cla := decBit w g2ClaBit
  sma := decBit w g2SmaBit
  sza := decBit w g2SzaBit
  snl := decBit w g2SnlBit
  inv := decBit w g2InvBit
  osr := decBit w g2OsrBit
  hlt := decBit w g2HltBit

/-- An operate word: the group by DEC bits 3 and 11 (R84), then its flags. -/
def decodeOperate (w : Word) : Instr :=
  if decBit w 3 = false then (group1Field w).toInstr
  else if decBit w 11 = false then (group2Field w).toInstr
  else group3Instr (decBit w g3ClaBit) (w.extractLsb' 1 6)

/-- The decoder (R86): a total function of the word, the conditions tested in the rule's order. -/
def decode (w : Word) : Instr :=
  if opcodeField w = 0 then .and (memRefField w)
  else if opcodeField w = 1 then .tad (memRefField w)
  else if opcodeField w = 2 then .isz (memRefField w)
  else if opcodeField w = 3 then .dca (memRefField w)
  else if opcodeField w = 4 then .jms (memRefField w)
  else if opcodeField w = 5 then .jmp (memRefField w)
  else if w = ionWord then .ion
  else if w = iofWord then .iof
  else if opcodeField w = 6 then .iot (w.extractLsb' 0 9)
  else decodeOperate w

/-- The instruction the decoder reads from an instruction of the opcode table whose bits are `w`.
Every instruction is one 12-bit word (R80), so a number of more bits is no instruction. -/
def decodeTableWord (_nbits w : Nat) : Option Instr :=
  if w < 4096 then some (decode (BitVec.ofNat 12 w)) else none

/-! ## The encoder -/

/-- The word in which DEC bit `n` is `b` and every other bit is 0. -/
def encodeBit (b : Bool) (n : Nat) : Word := if b then 1#12 <<< (11 - n) else 0

/-- A memory-reference word (R82). -/
def encodeMemRef (op : BitVec 3) (m : MemRef) : Word :=
  op.setWidth 12 <<< 9 ||| encodeBit m.indirect 3 ||| encodeBit m.page 4 ||| m.offset.setWidth 12

/-- A group 1 word (R84, R90). -/
def encodeGroup1 (f : Group1Flags) : Word :=
  0o7000#12 ||| encodeBit f.cla g1ClaBit ||| encodeBit f.cll g1CllBit ||| encodeBit f.cma g1CmaBit |||
    encodeBit f.cml g1CmlBit ||| encodeBit f.rar g1RarBit ||| encodeBit f.ral g1RalBit |||
    encodeBit f.two g1TwoBit ||| encodeBit f.iac g1IacBit

/-- A group 2 word (R84, R91). -/
def encodeGroup2 (f : Group2Flags) : Word :=
  0o7400#12 ||| encodeBit f.cla g2ClaBit ||| encodeBit f.sma g2SmaBit ||| encodeBit f.sza g2SzaBit |||
    encodeBit f.snl g2SnlBit ||| encodeBit f.inv g2InvBit ||| encodeBit f.osr g2OsrBit |||
    encodeBit f.hlt g2HltBit

/-- A group 3 word (R84, R92). -/
def encodeGroup3 (cla : Bool) (ext : BitVec 6) : Word :=
  0o7401#12 ||| encodeBit cla g3ClaBit ||| ext.setWidth 12 <<< 1

/-- The word of an operate instruction that is a set of flags. -/
def encodeFlags (i : Instr) : Word :=
  match i.group1Flags?, i.group2Flags? with
  | some f, _ => encodeGroup1 f
  | none, some f => encodeGroup2 f
  | none, none => encodeGroup3 true 0

/-- The encoder: the word of a well-formed instruction. -/
def encode : Instr → Word
  | .and m => encodeMemRef 0 m
  | .tad m => encodeMemRef 1 m
  | .isz m => encodeMemRef 2 m
  | .dca m => encodeMemRef 3 m
  | .jms m => encodeMemRef 4 m
  | .jmp m => encodeMemRef 5 m
  | .ion => ionWord
  | .iof => iofWord
  | .iot code => 0o6000#12 ||| code.setWidth 12
  | .opr3 cla ext => encodeGroup3 cla ext
  | .claGroup3 => encodeGroup3 true 0
  | i => encodeFlags i

end Sys2Proof
end

