-- ==== Sys2Proof/Machine/State.lean ====
section
/-! DEFINITION. The state of the machine as plain data, its updates, its reset, and how a step can stop. -/

namespace Sys2Proof.Machine

/-- One word of memory at an address. The spec's memory has no bytes (20_memory.md R50, R57), so a
cell holds a 12-bit word (DESIGN CHOICE, safe, log 11). -/
abbrev Cell := Nat × Word

/-- Memory as a list of cells in one canonical form, `Memory.wf`; an unlisted address reads as
`Memory.unlisted` (20_memory.md R50; log 10, log 11). -/
abbrev Memory := List Cell

/-- The complete state (10_state.md R20): the ten elements of the Processor State and the memory. -/
structure State where
  /-- `AC`, the accumulator (R21). -/
  ac : Word
  /-- `L`, the link (R22). -/
  l : BitVec 1
  /-- `PC`, the program counter (R23). -/
  pc : Word
  /-- `IR`, the instruction register (R24). -/
  ir : Word
  /-- `LPC`, the last-fetched program-counter value (R25). -/
  lpc : Word
  /-- `RUN`, the run flag: false means halted (R26). -/
  run : Bool
  /-- `IE`, the interrupt-enable flag (R27). -/
  ie : Bool
  /-- `IRQ`, the interrupt-request flag, written by the environment only (R28). -/
  irq : Bool
  /-- `SR`, the switch register, written by the environment only (R29). -/
  sr : Word
  /-- `DE`, the deferred-enable flag (R31). -/
  de : Bool
  /-- `MEM[0..4095]` (20_memory.md R50). -/
  mem : Memory
deriving DecidableEq, Repr

/-- Why a step stops with a fault: never. The type has no constructor, because the hardware raises no
synchronous exception (60_exceptions.md R210), every word decodes (30_encoding.md R98) and every
access succeeds (20_memory.md R56). Safe: nobody can raise one. -/
inductive Fault where
deriving DecidableEq, Repr

/-- Why the model refuses. -/
inductive Refusal where
  /-- Raised by `exec` for an instruction that has no meaning yet. Safe: the model stops where the
  hardware goes on. No arm raises it now. -/
  | notModelled (mnemonic : String)
  /-- Raised by `loadImage` only, for an image that does not fit (20_memory.md R70: a model refuses such
  a call). Safe: the spec defines no effect. No instruction raises it. -/
  | imageDoesNotFit
deriving DecidableEq, Repr

/-- How an execute step or a cycle ends. -/
abbrev Result := Host.Outcome State Fault Refusal

/-! ## Updates of one element -/

/-- `AC <- v` -/
def State.setAc (s : State) (v : Word) : State := { s with ac := v }
/-- `L <- v` -/
def State.setL (s : State) (v : BitVec 1) : State := { s with l := v }
/-- `PC <- v` -/
def State.setPc (s : State) (v : Word) : State := { s with pc := v }
/-- `IR <- v` -/
def State.setIr (s : State) (v : Word) : State := { s with ir := v }
/-- `LPC <- v` -/
def State.setLpc (s : State) (v : Word) : State := { s with lpc := v }
/-- `RUN <- b` -/
def State.setRun (s : State) (b : Bool) : State := { s with run := b }
/-- `IE <- b` -/
def State.setIe (s : State) (b : Bool) : State := { s with ie := b }
/-- `IRQ <- b` -/
def State.setIrq (s : State) (b : Bool) : State := { s with irq := b }
/-- `SR <- v` -/
def State.setSr (s : State) (v : Word) : State := { s with sr := v }
/-- `DE <- b` -/
def State.setDe (s : State) (b : Bool) : State := { s with de := b }
/-- The memory replaced. -/
def State.setMem (s : State) (m : Memory) : State := { s with mem := m }

/-- The machine right after `reset()` (10_state.md R30): every register zero or false, `RUN` true
(90_conflicts.md C3, log 5). Reset does not touch memory, whose launch contents are the parameter
`INIT_MEM`; this constant takes the image `memory_clear()` leaves, nothing listed (DESIGN CHOICE,
unsafe, log 10). For any other image see `State.launch`. -/
def State.reset : State where
  ac := 0
  l := 0
  pc := 0
  ir := 0
  lpc := 0
  run := true
  ie := false
  irq := false
  sr := 0
  de := false
  mem := []

end Sys2Proof.Machine
end

