-- ==== Sys2Proof/Machine/Ops.lean ====
section
/-! DEFINITION. The named operations over memory and registers, fetch, interrupt entry. -/

namespace Sys2Proof.Machine

/-! ## Memory -/

/-- What an address reads as that no cell lists (log 10). -/
def Memory.unlisted : Word := 0

/-- The word of the first cell at address `a`. -/
def Memory.lookup : Memory → Nat → Word
  | [], _ => Memory.unlisted
  | (b, v) :: m, a => if b = a then v else Memory.lookup m a

/-- `MemRead(a, 1)` (20_memory.md R54): total, without side effect. -/
def Memory.read (m : Memory) (a : Word) : Word := Memory.lookup m a.toNat

/-- The memory without its cells at address `a`. -/
def Memory.erase (m : Memory) (a : Nat) : Memory := m.filter fun c => c.1 != a

/-- A cell put before the first cell of a higher address. -/
def Memory.insert : Memory → Nat → Word → Memory
  | [], a, v => [(a, v)]
  | (b, w) :: m, a, v => if a < b then (a, v) :: (b, w) :: m else (b, w) :: Memory.insert m a v

/-- `MemWrite(a, 1, v)` (R55): total, changes the word at `a` only, keeps the canonical form. -/
def Memory.write (m : Memory) (a v : Word) : Memory :=
  if v = Memory.unlisted then Memory.erase m a.toNat
  else Memory.insert (Memory.erase m a.toNat) a.toNat v

/-- Addresses strictly rise along the list, from `lo` on. -/
def Memory.risingFrom : Nat → Memory → Bool
  | _, [] => true
  | lo, (a, _) :: m => decide (lo ≤ a) && Memory.risingFrom (a + 1) m

/-- The canonical form: addresses strictly rising, all below 4096, and no cell that holds what an
unlisted address reads as. -/
def Memory.wf (m : Memory) : Bool :=
  Memory.risingFrom 0 m && m.all fun c => decide (c.1 < 4096) && c.2 != Memory.unlisted

/-- `MEM[a] <- v` -/
def State.writeMem (s : State) (a v : Word) : State := s.setMem (s.mem.write a v)

/-! ## The combined value -/

/-- `LAC`, the link above the accumulator (00_scope.md R9). -/
def State.lac (s : State) : Combined := s.l ++ s.ac

/-- `LAC <- v`: `L <- v[12]; AC <- v[11:0]` (00_scope.md R9). -/
def State.setLac (s : State) (v : Combined) : State :=
  (s.setL (v.extractLsb' 12 1)).setAc (v.extractLsb' 0 12)

/-! ## Program counter, run flag -/

/-- `skip`: `PC <- (PC + 1) mod 4096` (00_scope.md R10). -/
def State.skip (s : State) : State := s.setPc (s.pc + 1)

/-- An action that happens only when its flag or condition holds. -/
def applyIf (b : Bool) (f : State → State) (s : State) : State := if b then f s else s

/-! ## The cycle's own steps (44_cycle_scheduler.md R190) -/

/-- Steps 0 and 1: clear `DE` (60_exceptions.md R214, log 6), then fetch (44_cycle_scheduler.md R191). -/
def State.fetch (s : State) : State :=
  let s := s.setDe false
  let s := s.setIr (s.mem.read s.pc)
  let s := s.setLpc s.pc
  s.setPc (s.pc + 1)

/-- The word interrupt entry saves `PC` in (00_scope.md R5, `INT_SAVE_ADDR`). -/
def intSaveAddr : Word := 0
/-- The address interrupt entry continues at (00_scope.md R5, `INT_ENTRY_PC`). -/
def intEntryPc : Word := 1

/-- `InterruptEntry()` (60_exceptions.md R216), the machine's one exception entry: `PC` is saved in
memory word 0, execution continues at 1, interrupts are off. There is no return instruction: the
return is a JMP through word 0 (R220), so no operation stands beside this one. -/
def State.interruptEntry (s : State) : State :=
  ((s.writeMem intSaveAddr s.pc).setPc intEntryPc).setIe false

/-- The condition of the interrupt check, the deferred-enable check first (44_cycle_scheduler.md R193,
60_exceptions.md R215). -/
def State.takesInterrupt (s : State) : Bool := !s.de && (s.ie && s.irq)

/-- Steps 3 and 4: the deferred-enable check and the interrupt check (44_cycle_scheduler.md R193, R194).
Step 5 changes nothing: the run state is `RUN` (R195). A halt does not prevent the entry (log 13). -/
def State.interruptCheck (s : State) : State := applyIf s.takesInterrupt State.interruptEntry s

end Sys2Proof.Machine
end

