-- ==== Sys2Proof/Machine/Iot.lean ====
section
/-! DEFINITION. The IOT instructions (42_iot.md). -/

namespace Sys2Proof.Machine

/-- ION (R141): `IE <- true; DE <- true`. -/
def execIon (s : State) : Result := .next ((s.setIe true).setDe true)

/-- IOF (R142): `IE <- false`. -/
def execIof (s : State) : Result := .next (s.setIe false)

/-- IOT, any other opcode-6 word (R143): no operation; the code is ignored. -/
def execIot (_code : BitVec 9) (s : State) : Result := .next s

end Sys2Proof.Machine
end

