-- ==== Sys2Proof/Config.lean ====
section
/-! DEFINITION. What the spec leaves open as a parameter with no value.

The parameters that do have a value stand where they are used, so that they can be mended:
`ionWord`, `iofWord` and the flag positions in Decode.lean, `autoIndexFirst` and `autoIndexLast` in
Machine/Operands.lean, `intSaveAddr` and `intEntryPc` in Machine/Ops.lean. `START_PC` and `INIT_MEM`
are arguments of `State.launch` (Machine/Environment.lean). -/

namespace Sys2Proof.Config

/-- `RotBoth` (43_operate.md R164): the result of the rotate step of a group 1 word with both
rotate-direction flags set, as a function of the combined value after steps 1 to 5 and of the twice
flag. Nothing is assumed of it. DESIGN CHOICE of the spec (92_eei_decisions.md D4), safe: no proof
can see its value (log 4). -/
opaque rotBoth : Combined → Bool → Combined

end Sys2Proof.Config
end

