-- ==== Sys2Proof/Machine/Flags.lean ====
section
/-! DEFINITION. The ALU with link and the skip test (43_operate.md, 41_memory_reference.md R127). -/

namespace Sys2Proof.Machine

/-! ## The rotate primitives and the 13-bit sums -/

/-- `ROL13(c) = ((c * 2) mod 8192) + c[12]` (43_operate.md R165). -/
def rol13 (c : Combined) : Combined := c * 2 + (c.extractLsb' 12 1).setWidth 13

/-- `ROR13(c) = floor(c / 2) + c[0] * 4096` (R165). -/
def ror13 (c : Combined) : Combined := c / 2 + (c.extractLsb' 0 1).setWidth 13 * 4096

/-- The sum of TAD: `(LAC + m) mod 8192`, the carry complementing the link (41_memory_reference.md R122). -/
def addCombined (c : Combined) (m : Word) : Combined := c + m.setWidth 13

/-! ## The elementary actions of the operate engine -/

/-- clear accumulator: `AC <- 0` (R153, R178, R184). -/
def State.clearAc (s : State) : State := s.setAc 0
/-- clear link: `L <- 0` (R154). -/
def State.clearLink (s : State) : State := s.setL 0
/-- complement accumulator: `AC <- NOT12(AC)` (R155). -/
def State.complementAc (s : State) : State := s.setAc (~~~s.ac)
/-- complement link: `L <- 1 - L` (R156). -/
def State.complementLink (s : State) : State := s.setL (1 - s.l)
/-- increment: `LAC <- (LAC + 1) mod 8192` (R157). -/
def State.incrementLac (s : State) : State := s.setLac (s.lac + 1)
/-- rotate right once (R158). -/
def State.rotateRight (s : State) : State := s.setLac (ror13 s.lac)
/-- rotate left once (R159). -/
def State.rotateLeft (s : State) : State := s.setLac (rol13 s.lac)
/-- The rotate step with both directions flagged (R164): a free value (log 4). -/
def State.rotateBoth (two : Bool) (s : State) : State := s.setLac (Config.rotBoth s.lac two)
/-- OR the switch register into the accumulator: `AC <- AC OR SR` (R179). -/
def State.orSwitches (s : State) : State := s.setAc (s.ac ||| s.sr)
/-- halt: `RUN <- false` (R180). -/
def State.halt (s : State) : State := s.setRun false

/-! ## Group 1 -/

/-- Steps 1 to 5 of the group 1 sequence (R152): CLA, CLL, CMA, CML, IAC. -/
def group1BeforeRotate (f : Group1Flags) (s : State) : State :=
  let s := applyIf f.cla State.clearAc s
  let s := applyIf f.cll State.clearLink s
  let s := applyIf f.cma State.complementAc s
  let s := applyIf f.cml State.complementLink s
  applyIf f.iac State.incrementLac s

/-- Step 6 of the group 1 sequence (R152): rotate, once or twice, left, right, both (R164) or not at
all (R162). -/
def group1Rotate (f : Group1Flags) (s : State) : State :=
  match f.ral, f.rar with
  | true, false => if f.two then s.rotateLeft.rotateLeft else s.rotateLeft
  | false, true => if f.two then s.rotateRight.rotateRight else s.rotateRight
  | true, true => s.rotateBoth f.two
  | false, false => s

/-- The group 1 sequence (R152). -/
def group1 (f : Group1Flags) (s : State) : State := group1Rotate f (group1BeforeRotate f s)

/-! ## Group 2 -/

/-- SNL (R170): the link is 1. -/
def linkSet (l : BitVec 1) : Bool := l == 1
/-- SZA (R172): the accumulator is 0. -/
def acZero (ac : Word) : Bool := ac == 0
/-- SMA (R171): the accumulator is at least 2048, its sign bit set. -/
def acMinus (ac : Word) : Bool := decide (2048 ≤ ac.toNat)

/-- The skip test (R169). The inverted conditions are joined by OR, as the rule writes them (R177,
90_conflicts.md C11). -/
def skipTest (f : Group2Flags) (ac : Word) (l : BitVec 1) : Bool :=
  if f.inv then
    (!f.sma && !f.sza && !f.snl) || (f.snl && !linkSet l) || (f.sza && !acZero ac) ||
      (f.sma && !acMinus ac)
  else (f.snl && linkSet l) || (f.sza && acZero ac) || (f.sma && acMinus ac)

/-- The group 2 sequence (R168): the skip test on the entry values, CLA, OSR, HLT. -/
def group2 (f : Group2Flags) (s : State) : State :=
  let s := applyIf (skipTest f s.ac s.l) State.skip s
  let s := applyIf f.cla State.clearAc s
  let s := applyIf f.osr State.orSwitches s
  applyIf f.hlt State.halt s

/-! ## Group 3 -/

/-- The group 3 sequence (R183): CLA only; `g3_ext` is ignored (R185, 92_eei_decisions.md D7, log 7). -/
def group3 (cla : Bool) (s : State) : State := applyIf cla State.clearAc s

end Sys2Proof.Machine
end

