-- ==== Sys2Proof/Machine/Operands.lean ====
section
/-! DEFINITION. The effective-address resolver (40_effective_address.md). -/

namespace Sys2Proof.Machine

/-- `AUTOINDEX_FIRST` (00_scope.md R5). -/
def autoIndexFirst : Word := 8
/-- `AUTOINDEX_LAST` (00_scope.md R5): 15, by 90_conflicts.md C2 (DEDUCED, unsafe at address 15, log 1). -/
def autoIndexLast : Word := 15

/-- The base of the page of an address: `a AND 0o7600` (00_scope.md, glossary). -/
def pageBase (a : Word) : Word := a &&& 0o7600#12

/-- The direct address (40_effective_address.md R111): the page base, of page zero or of the page the
instruction was fetched from, plus the zero-extended offset. -/
def directAddress (m : MemRef) (lpc : Word) : Word :=
  (if m.page then pageBase lpc else 0) + m.offset.setWidth 12

/-- The address is that of an auto-index cell (R113). -/
def isAutoIndex (a : Word) : Bool := decide (autoIndexFirst ≤ a) && decide (a ≤ autoIndexLast)

/-- The value `EA()` returns (R112): the direct address, or the word there before any increment (R114). -/
def effectiveAddress (m : MemRef) (s : State) : Word :=
  if m.indirect then s.mem.read (directAddress m s.lpc) else directAddress m s.lpc

/-- `EA()` increments the cell at the direct address (R112). -/
def autoIncrements (m : MemRef) (s : State) : Bool := m.indirect && isAutoIndex (directAddress m s.lpc)

/-- The state `EA()` leaves (R112): at most the auto-index cell is written, with wrap-around (R114). -/
def resolve (m : MemRef) (s : State) : State :=
  applyIf (autoIncrements m s)
    (fun s => s.writeMem (directAddress m s.lpc) (s.mem.read (directAddress m s.lpc) + 1)) s

end Sys2Proof.Machine
end

