-- ==== Sys2Proof/Machine/MemoryReference.lean ====
section
/-! DEFINITION. The memory-reference instructions (41_memory_reference.md): the execute step, entered
after fetch. Each first evaluates `EA()`, its auto-index write included, then acts (R120). -/

namespace Sys2Proof.Machine

/-- AND (R121): `AC <- AC AND MEM[ea]`. -/
def execAnd (m : MemRef) (s : State) : Result :=
  let ea := effectiveAddress m s
  let s := resolve m s
  .next (s.setAc (s.ac &&& s.mem.read ea))

/-- TAD (R122): `LAC <- (LAC + MEM[ea]) mod 8192`. -/
def execTad (m : MemRef) (s : State) : Result :=
  let ea := effectiveAddress m s
  let s := resolve m s
  .next (s.setLac (addCombined s.lac (s.mem.read ea)))

/-- ISZ (R123): `MEM[ea] <- MEM[ea] + 1`, skip when the result is 0. -/
def execIsz (m : MemRef) (s : State) : Result :=
  let ea := effectiveAddress m s
  let s := resolve m s
  let v := s.mem.read ea + 1
  .next (applyIf (v == 0) State.skip (s.writeMem ea v))

/-- DCA (R124): `MEM[ea] <- AC; AC <- 0`. -/
def execDca (m : MemRef) (s : State) : Result :=
  let ea := effectiveAddress m s
  let s := resolve m s
  .next ((s.writeMem ea s.ac).setAc 0)

/-- JMS (R125): `MEM[ea] <- PC; PC <- ea + 1`. -/
def execJms (m : MemRef) (s : State) : Result :=
  let ea := effectiveAddress m s
  let s := resolve m s
  .next ((s.writeMem ea s.pc).setPc (ea + 1))

/-- JMP (R126): `PC <- ea`. -/
def execJmp (m : MemRef) (s : State) : Result :=
  let ea := effectiveAddress m s
  let s := resolve m s
  .next (s.setPc ea)

end Sys2Proof.Machine
end

