-- ==== Sys2Proof/Machine/Operate.lean ====
section
/-! DEFINITION. The operate instructions (43_operate.md). The rows that name one microinstruction follow
that microinstruction's own rule; the rows that name a combination run the group's sequence on its flags
(30_encoding.md R103: "Each is an ordinary operate word"). -/

namespace Sys2Proof.Machine

/-! ## The groups -/

/-- OPR1 (R152). -/
def execOpr1 (f : Group1Flags) (s : State) : Result := .next (group1 f s)

/-- OPR2 (R168). -/
def execOpr2 (f : Group2Flags) (s : State) : Result := .next (group2 f s)

/-- OPR3 (R183): the extension bits are ignored (R185). -/
def execOpr3 (cla : Bool) (_ext : BitVec 6) (s : State) : Result := .next (group3 cla s)

/-! ## Group 1 microinstructions -/

/-- CLA of group 1 (R153): `AC <- 0`. -/
def execCla (s : State) : Result := .next s.clearAc

/-- CLL (R154): `L <- 0`. -/
def execCll (s : State) : Result := .next s.clearLink

/-- CMA (R155): `AC <- NOT12(AC)`. -/
def execCma (s : State) : Result := .next s.complementAc

/-- CML (R156): `L <- 1 - L`. -/
def execCml (s : State) : Result := .next s.complementLink

/-- IAC (R157): `LAC <- (LAC + 1) mod 8192`. -/
def execIac (s : State) : Result := .next s.incrementLac

/-- RAR (R158): `LAC <- ROR13(LAC)`. -/
def execRar (s : State) : Result := .next s.rotateRight

/-- RAL (R159): `LAC <- ROL13(LAC)`. -/
def execRal (s : State) : Result := .next s.rotateLeft

/-- RTR (R160): `LAC <- ROR13(ROR13(LAC))`. -/
def execRtr (s : State) : Result := .next s.rotateRight.rotateRight

/-- RTL (R161): `LAC <- ROL13(ROL13(LAC))`. -/
def execRtl (s : State) : Result := .next s.rotateLeft.rotateLeft

/-- The twice flag without a direction (R162): nothing; not a byte swap. -/
def execTwiceFlagAlone (s : State) : Result := .next s

/-- Both rotate directions flagged (R164): steps 1 to 5 of the group 1 sequence as usual, then
`LAC <- RotBoth(LAC, w[1] = 1)`, a free value (log 4). -/
def execBothRotateDirections (cla cll cma cml two iac : Bool) (s : State) : Result :=
  .next ((group1BeforeRotate ⟨cla, cll, cma, cml, true, true, two, iac⟩ s).rotateBoth two)

/-! ## Group 2 microinstructions -/

/-- SMA (R171): skip if `AC >= 2048`. -/
def execSma (s : State) : Result := .next (applyIf (acMinus s.ac) State.skip s)

/-- SZA (R172): skip if `AC = 0`. -/
def execSza (s : State) : Result := .next (applyIf (acZero s.ac) State.skip s)

/-- SNL (R170): skip if `L = 1`. -/
def execSnl (s : State) : Result := .next (applyIf (linkSet s.l) State.skip s)

/-- SPA (R174): skip if `AC < 2048`. -/
def execSpa (s : State) : Result := .next (applyIf (!acMinus s.ac) State.skip s)

/-- SNA (R175): skip if `AC > 0`. -/
def execSna (s : State) : Result := .next (applyIf (!acZero s.ac) State.skip s)

/-- SZL (R173): skip if `L = 0`. -/
def execSzl (s : State) : Result := .next (applyIf (!linkSet s.l) State.skip s)

/-- SKP (R176): skip. -/
def execSkp (s : State) : Result := .next s.skip

/-- CLA of group 2 (R178): `AC <- 0`. -/
def execClaGroup2 (s : State) : Result := .next s.clearAc

/-- OSR (R179): `AC <- AC OR SR`. -/
def execOsr (s : State) : Result := .next s.orSwitches

/-- HLT (R180): `RUN <- false`. -/
def execHlt (s : State) : Result := .next s.halt

/-! ## Group 3 microinstruction -/

/-- CLA of group 3 (R184): `AC <- 0`. -/
def execClaGroup3 (s : State) : Result := .next s.clearAc

/-! ## Named combinations -/

/-- NOP, the group 1 word with no flag (R163). -/
def execNop (s : State) : Result := .next (group1 {} s)

/-- CLA CLL (R103, R186). -/
def execClaCll (s : State) : Result := .next (group1 { cla := true, cll := true } s)

/-- CIA, that is CMA IAC (R103, R186). -/
def execCia (s : State) : Result := .next (group1 { cma := true, iac := true } s)

/-- STA, that is CLA CMA (R103, R186). -/
def execSta (s : State) : Result := .next (group1 { cla := true, cma := true } s)

/-- STL, that is CLL CML (R103, R186). -/
def execStl (s : State) : Result := .next (group1 { cll := true, cml := true } s)

/-- GLK, that is CLA RAL (R103, R186). -/
def execGlk (s : State) : Result := .next (group1 { cla := true, ral := true } s)

/-- CLA IAC (R103, R186). -/
def execClaIac (s : State) : Result := .next (group1 { cla := true, iac := true } s)

/-- CLL RAL (R103, R186). -/
def execCllRal (s : State) : Result := .next (group1 { cll := true, ral := true } s)

/-- CLL RAR (R103, R186). -/
def execCllRar (s : State) : Result := .next (group1 { cll := true, rar := true } s)

/-- IAC RAL (R103, R186). -/
def execIacRal (s : State) : Result := .next (group1 { iac := true, ral := true } s)

/-- The group 2 word with no flag (R181). -/
def execGroup2NoFlag (s : State) : Result := .next (group2 {} s)

/-- LAS, that is CLA OSR (R103, R186). -/
def execLas (s : State) : Result := .next (group2 { cla := true, osr := true } s)

/-- SZA CLA (R103, R186). -/
def execSzaCla (s : State) : Result := .next (group2 { sza := true, cla := true } s)

/-- SNA CLA (R103, R186). -/
def execSnaCla (s : State) : Result := .next (group2 { sza := true, inv := true, cla := true } s)

/-- SMA CLA (R103, R186). -/
def execSmaCla (s : State) : Result := .next (group2 { sma := true, cla := true } s)

/-- SPA CLA (R103, R186). -/
def execSpaCla (s : State) : Result := .next (group2 { sma := true, inv := true, cla := true } s)

/-- CLA OSR HLT (R103, R186). -/
def execClaOsrHlt (s : State) : Result := .next (group2 { cla := true, osr := true, hlt := true } s)

/-- SKP HLT (R103, R186). -/
def execSkpHlt (s : State) : Result := .next (group2 { inv := true, hlt := true } s)

end Sys2Proof.Machine
end

