-- ==== Sys2Proof/Machine/Dispatch.lean ====
section
/-! DEFINITION. The dispatch: one arm per constructor of Instr (44_cycle_scheduler.md R192). -/

namespace Sys2Proof.Machine

def exec (i : Instr) (s : State) : Host.Outcome State Fault Refusal :=
  match i with
  | .and m => Sys2Proof.Machine.execAnd m s
  | .tad m => Sys2Proof.Machine.execTad m s
  | .isz m => Sys2Proof.Machine.execIsz m s
  | .dca m => Sys2Proof.Machine.execDca m s
  | .jms m => Sys2Proof.Machine.execJms m s
  | .jmp m => Sys2Proof.Machine.execJmp m s
  | .ion => Sys2Proof.Machine.execIon s
  | .iof => Sys2Proof.Machine.execIof s
  | .iot code => Sys2Proof.Machine.execIot code s
  | .opr1 f => Sys2Proof.Machine.execOpr1 f s
  | .opr2 f => Sys2Proof.Machine.execOpr2 f s
  | .opr3 cla ext => Sys2Proof.Machine.execOpr3 cla ext s
  | .cla => Sys2Proof.Machine.execCla s
  | .cll => Sys2Proof.Machine.execCll s
  | .cma => Sys2Proof.Machine.execCma s
  | .cml => Sys2Proof.Machine.execCml s
  | .iac => Sys2Proof.Machine.execIac s
  | .rar => Sys2Proof.Machine.execRar s
  | .ral => Sys2Proof.Machine.execRal s
  | .rtr => Sys2Proof.Machine.execRtr s
  | .rtl => Sys2Proof.Machine.execRtl s
  | .twiceFlagAlone => Sys2Proof.Machine.execTwiceFlagAlone s
  | .bothRotateDirections cla cll cma cml two iac => Sys2Proof.Machine.execBothRotateDirections cla cll cma cml two iac s
  | .sma => Sys2Proof.Machine.execSma s
  | .sza => Sys2Proof.Machine.execSza s
  | .snl => Sys2Proof.Machine.execSnl s
  | .spa => Sys2Proof.Machine.execSpa s
  | .sna => Sys2Proof.Machine.execSna s
  | .szl => Sys2Proof.Machine.execSzl s
  | .skp => Sys2Proof.Machine.execSkp s
  | .claGroup2 => Sys2Proof.Machine.execClaGroup2 s
  | .osr => Sys2Proof.Machine.execOsr s
  | .hlt => Sys2Proof.Machine.execHlt s
  | .claGroup3 => Sys2Proof.Machine.execClaGroup3 s
  | .nop => Sys2Proof.Machine.execNop s
  | .claCll => Sys2Proof.Machine.execClaCll s
  | .cia => Sys2Proof.Machine.execCia s
  | .sta => Sys2Proof.Machine.execSta s
  | .stl => Sys2Proof.Machine.execStl s
  | .glk => Sys2Proof.Machine.execGlk s
  | .claIac => Sys2Proof.Machine.execClaIac s
  | .cllRal => Sys2Proof.Machine.execCllRal s
  | .cllRar => Sys2Proof.Machine.execCllRar s
  | .iacRal => Sys2Proof.Machine.execIacRal s
  | .group2NoFlag => Sys2Proof.Machine.execGroup2NoFlag s
  | .las => Sys2Proof.Machine.execLas s
  | .szaCla => Sys2Proof.Machine.execSzaCla s
  | .snaCla => Sys2Proof.Machine.execSnaCla s
  | .smaCla => Sys2Proof.Machine.execSmaCla s
  | .spaCla => Sys2Proof.Machine.execSpaCla s
  | .claOsrHlt => Sys2Proof.Machine.execClaOsrHlt s
  | .skpHlt => Sys2Proof.Machine.execSkpHlt s

end Sys2Proof.Machine
end

