-- ==== Sys2Proof/Machine/Step.lean ====
section
/-! DEFINITION. One step of the machine, and how an instruction is placed for the next step. -/

namespace Sys2Proof.Machine

/-- `step()` (44_cycle_scheduler.md R203). While RUNNING, one cycle (R190): fetch, execute what `IR`
decodes to, the deferred-enable and interrupt checks. In HALTED nothing changes (R198, log 8). -/
def step (s : State) : Host.Outcome State Fault Refusal :=
  if s.run then
    match exec (decode s.fetch.ir) s.fetch with
    | .next t => .next t.interruptCheck
    | .fault r => .fault r
    | .refused r => .refused r
  else .next s

/-- The state with the instruction word `w` stored where the next step fetches it, and RUNNING, so that
the next step fetches and runs it (log 15). -/
def State.withFetchWord (s : State) (_nbits w : Nat) : State :=
  (s.writeMem s.pc (mask12 w)).setRun true

end Sys2Proof.Machine
end

