-- ==== Sys2Proof/Machine/Environment.lean ====
section
/-! DEFINITION. The environment's operations, performed at cycle boundaries (44_cycle_scheduler.md,
section 3), and runs. -/

namespace Sys2Proof.Machine

/-- The scheduler's states (44_cycle_scheduler.md R197). -/
inductive RunState where
  | running
  | halted
deriving DecidableEq, Repr

/-- The run state is `RUN` (R195, R197). -/
def State.runState (s : State) : RunState := if s.run then .running else .halted

/-- `reset()` (R200, 70_reset_and_hazards.md R240): the registers as 10_state.md R30 gives them, memory
untouched (R242). It clears `IRQ` and `SR` too (log 14). -/
def State.processorReset (s : State) : State := State.reset.setMem s.mem

/-- `memory_clear()` (R201, 20_memory.md R69): zero in all 4096 words, no register changed. -/
def State.memoryClear (s : State) : State := s.setMem []

/-- The words stored at `start`, `start + 1`, ... in order. -/
def Memory.writeList : Memory → Nat → List Word → Memory
  | m, _, [] => m
  | m, start, v :: vs => Memory.writeList (Memory.write m (mask12 start) v) (start + 1) vs

/-- `load_image(words, start)` (R202, 20_memory.md R70): refused unless the image fits (log 12). The rules
give it before the first cycle only; that it acts alike at every state, execution begun or not, RUNNING or
HALTED, is the model's DESIGN CHOICE, unsafe (91_not_in_source.md N19, log 18). -/
def loadImage (words : List Word) (start : Nat) (s : State) : Result :=
  if start + words.length ≤ 4096 then .next (s.setMem (s.mem.writeList start words))
  else .refused .imageDoesNotFit

/-- The word of one record of a program image (20_memory.md R66, informative: the loader is outside the
core). -/
def imageRecord (byte0 byte1 : BitVec 8) : Word := mask12 (byte0.toNat * 64 + byte1.toNat)

/-- A launch (R208): `reset()`, then the image `INIT_MEM`, then `PC <- START_PC` (R207, log 9). -/
def State.launch (initMem : Memory) (startPc : Word := 0) : State :=
  (State.reset.setMem initMem).setPc startPc

/-- `step()` after the environment has presented `IRQ` and `SR` (00_scope.md R12, R204): the values a
cycle sees are those written before it. -/
def stepWith (irq : Bool) (sr : Word) (s : State) : Result := step ((s.setIrq irq).setSr sr)

/-- A run: one `stepWith` for each pair of input values. -/
def runWith : List (Bool × Word) → State → Result
  | [], s => .next s
  | (irq, sr) :: inputs, s =>
    match stepWith irq sr s with
    | .next t => runWith inputs t
    | .fault r => .fault r
    | .refused r => .refused r

/-- `n` calls of `step()` with no write of the environment between them. -/
def runSteps : Nat → State → Result
  | 0, s => .next s
  | n + 1, s =>
    match step s with
    | .next t => runSteps n t
    | .fault r => .fault r
    | .refused r => .refused r

/-- `run_until_halt()` (R205): `step()` is repeated while RUNNING. `none` says that the machine still
runs after `fuel` cycles (log 17). -/
def runUntilHalt : Nat → State → Option State
  | 0, s => if s.run then none else some s
  | fuel + 1, s =>
    if s.run then
      match step s with
      | .next t => runUntilHalt fuel t
      | .fault _ => none
      | .refused _ => none
    else some s

/-- What the environment does at a cycle boundary (R196, R200 to R204). -/
inductive EnvAction where
  | reset
  | memoryClear
  | loadImage (words : List Word) (start : Nat)
  | step
  | writeSr (v : Word)
  | writeIrq (b : Bool)
deriving DecidableEq, Repr

/-- The effect of one action of the environment, at any cycle boundary. For `loadImage` after execution has
begun that is the model's DESIGN CHOICE, unsafe (91_not_in_source.md N19, log 18). -/
def perform : EnvAction → State → Result
  | .reset, s => .next s.processorReset
  | .memoryClear, s => .next s.memoryClear
  | .loadImage words start, s => Sys2Proof.Machine.loadImage words start s
  | .step, s => Sys2Proof.Machine.step s
  | .writeSr v, s => .next (s.setSr v)
  | .writeIrq b, s => .next (s.setIrq b)

end Sys2Proof.Machine
end

