-- ==== Sys2Proof/WellFormed.lean ====
section
/-! DEFINITION. Which terms of `Instr` stand for a word: one term for each of the 4096 words. -/

namespace Sys2Proof

/-- A row of the opcode table other than OPR1 names this set of group 1 flags. -/
def Group1Flags.hasRow (f : Group1Flags) : Bool :=
  f.rar && f.ral || namedGroup1.any fun i => i.group1Flags? == some f

/-- A row of the opcode table other than OPR2 names this set of group 2 flags. -/
def Group2Flags.hasRow (f : Group2Flags) : Bool :=
  namedGroup2.any fun i => i.group2Flags? == some f

/-- The checks of an instruction's fields, every other field being free: an IOT is neither ION nor IOF
(30_encoding.md R88), and OPR1, OPR2 and OPR3 carry flags that no other row names (log 16). -/
def Instr.wellFormed : Instr → Bool
  | .iot code => encode (.iot code) != ionWord && encode (.iot code) != iofWord
  | .opr1 f => !f.hasRow
  | .opr2 f => !f.hasRow
  | .opr3 c ext => !(c && ext == 0)
  | _ => true

end Sys2Proof
end

