-- ==== Sys2Proof/Safety.lean ====
section
/-! DEFINITION. What counts as a safe run, and the spec's own arithmetic written on natural numbers, in
the terms the statements use. -/

namespace Sys2Proof.Machine

/-! ## Invariants -/

/-- What holds at every cycle boundary: memory is canonical; `DE` is set exactly when the last executed
word is ION (10_state.md R31), and then `IE` is set too (42_iot.md R141); a halted machine holds a word
with the halt flag in `IR` (43_operate.md R180). -/
abbrev MachineInv (s : State) : Prop :=
  s.mem.wf = true ∧ (s.de = true ↔ s.ir = ionWord) ∧ (s.de = true → s.ie = true) ∧
    (s.run = false → s.ir &&& 0o7403#12 = 0o7402#12)

/-! ## The decode classes, on numbers -/

/-- The condition on the word of each decode class (30_encoding.md R86), `ION_WORD` and `IOF_WORD` being
parameters. -/
def classCondition (c : DecodeClass) (w : Word) : Bool :=
  match c with
  | .and => w.toNat / 512 == 0
  | .tad => w.toNat / 512 == 1
  | .isz => w.toNat / 512 == 2
  | .dca => w.toNat / 512 == 3
  | .jms => w.toNat / 512 == 4
  | .jmp => w.toNat / 512 == 5
  | .ion => w == ionWord
  | .iof => w == iofWord
  | .iot => w.toNat / 512 == 6 && w != ionWord && w != iofWord
  | .opr1 => w.toNat / 256 == 14
  | .opr2 => w.toNat / 256 == 15 && w.toNat % 2 == 0
  | .opr3 => w.toNat / 256 == 15 && w.toNat % 2 == 1

/-- The fields of a memory-reference word by weight bits (30_encoding.md R82). -/
def specMemRef (w : Word) : MemRef := ⟨w.getLsbD 8, w.getLsbD 7, BitVec.ofNat 7 w.toNat⟩

/-- The flags of a group 1 word by weight bits (30_encoding.md R90). -/
def specGroup1Flags (w : Word) : Group1Flags :=
  ⟨w.getLsbD 7, w.getLsbD 6, w.getLsbD 5, w.getLsbD 4, w.getLsbD 3, w.getLsbD 2, w.getLsbD 1, w.getLsbD 0⟩

/-- The flags of a group 2 word by weight bits (30_encoding.md R91). -/
def specGroup2Flags (w : Word) : Group2Flags :=
  ⟨w.getLsbD 7, w.getLsbD 6, w.getLsbD 5, w.getLsbD 4, w.getLsbD 3, w.getLsbD 2, w.getLsbD 1⟩

/-! ## The effective address, on numbers -/

/-- The direct address (40_effective_address.md R111): page base `LPC AND 0o7600`, that is `LPC` rounded
down to a multiple of 128, plus the offset. -/
def specDirect (m : MemRef) (lpc : Word) : Word :=
  mask12 ((if m.page then lpc.toNat / 128 * 128 else 0) + m.offset.toNat)

/-- The effective address (R112, R117). -/
def specEa (m : MemRef) (s : State) : Word :=
  if m.indirect then s.mem.read (specDirect m s.lpc) else specDirect m s.lpc

/-- `EA()` increments its pointer cell: an indirect reference whose direct address lies in the range of
the parameters `AUTOINDEX_FIRST` to `AUTOINDEX_LAST` (R112). -/
def specAutoIndexes (m : MemRef) (s : State) : Bool :=
  m.indirect && decide (autoIndexFirst.toNat ≤ (specDirect m s.lpc).toNat ∧
    (specDirect m s.lpc).toNat ≤ autoIndexLast.toNat)

/-- The word at `a` once `EA()` has run (R112, R114): its pointer cell incremented modulo 4096, every
other word as before. -/
def readAfterEa (m : MemRef) (s : State) (a : Word) : Word :=
  if specAutoIndexes m s = true ∧ a = specDirect m s.lpc then s.mem.read a + 1 else s.mem.read a

/-! ## The combined value and the operate sequences, on numbers -/

/-- `LAC = L * 4096 + AC` (00_scope.md R9). -/
def specLac (s : State) : Nat := s.l.toNat * 4096 + s.ac.toNat

/-- The state with `LAC <- c` (00_scope.md R9). -/
def withLac (s : State) (c : Nat) : State :=
  { s with l := BitVec.ofNat 1 (c / 4096), ac := BitVec.ofNat 12 (c % 4096) }

/-- `ROL13` on numbers (43_operate.md R165). -/
def specRol (c : Nat) : Nat := c * 2 % 8192 + c / 4096 % 2

/-- `ROR13` on numbers (43_operate.md R165). -/
def specRor (c : Nat) : Nat := c / 2 + c % 2 * 4096

/-- `LAC` after steps 1 to 5 of the group 1 sequence (43_operate.md R152), on numbers. -/
def specBeforeRotate (f : Group1Flags) (s : State) : Nat :=
  let a := if f.cla then 0 else s.ac.toNat
  let l := if f.cll then 0 else s.l.toNat
  let a := if f.cma then 4095 - a else a
  let l := if f.cml then 1 - l else l
  if f.iac then (l * 4096 + a + 1) % 8192 else l * 4096 + a

/-- `LAC` after the whole group 1 sequence (43_operate.md R152, R164), on numbers. -/
def specGroup1 (f : Group1Flags) (s : State) : Nat :=
  let c := specBeforeRotate f s
  if f.ral = true ∧ f.rar = false then (if f.two then specRol (specRol c) else specRol c)
  else if f.rar = true ∧ f.ral = false then (if f.two then specRor (specRor c) else specRor c)
  else if f.rar = true ∧ f.ral = true then (Config.rotBoth (BitVec.ofNat 13 c) f.two).toNat
  else c

/-- The skip test (43_operate.md R169), on numbers. -/
abbrev specSkips (f : Group2Flags) (ac l : Nat) : Prop :=
  if f.inv = false then
    (f.snl = true ∧ l = 1) ∨ (f.sza = true ∧ ac = 0) ∨ (f.sma = true ∧ ac ≥ 2048)
  else
    (f.sma = false ∧ f.sza = false ∧ f.snl = false) ∨ (f.snl = true ∧ l = 0) ∨
      (f.sza = true ∧ ac > 0) ∨ (f.sma = true ∧ ac < 2048)

/-- The state after the group 2 sequence (43_operate.md R168): skip on the entry values, clear, OR, halt. -/
def specGroup2 (f : Group2Flags) (s : State) : State :=
  { s with
    pc := if specSkips f s.ac.toNat s.l.toNat then s.pc + 1 else s.pc
    ac := if f.osr then (if f.cla then s.sr else s.ac ||| s.sr) else if f.cla then 0 else s.ac
    run := if f.hlt then false else s.run }

/-! ## The cycle -/

/-- The state after steps 0 and 1 of a cycle (44_cycle_scheduler.md R190, R191). -/
def specFetched (s : State) : State :=
  { s with de := false, ir := s.mem.read s.pc, lpc := s.pc, pc := s.pc + 1 }

/-- An interrupt is taken at the check (44_cycle_scheduler.md R193, 60_exceptions.md R215). -/
def specTakes (s : State) : Prop := s.de = false ∧ s.ie = true ∧ s.irq = true

/-- `t` is `u` with the interrupt entry done (60_exceptions.md R216): `PC` saved in word 0, `PC` 1, `IE`
false, every other element and every other word of memory as in `u`. -/
def EntryOf (u t : State) : Prop :=
  t = { u with pc := 1, ie := false, mem := t.mem } ∧ t.mem.read 0 = u.pc ∧
    ∀ a, a ≠ 0 → t.mem.read a = u.mem.read a

/-- The execute step of a cycle (44_cycle_scheduler.md R192) as a relation between the state after fetch
and the state after execute, read off the word: 41_memory_reference.md R121 to R126, 42_iot.md R141 to
R143, 43_operate.md R152, R168, R183. -/
def SpecExecute (w : Word) (s u : State) : Prop :=
  let m := specMemRef w
  let ea := specEa m s
  let v := readAfterEa m s ea
  match w.toNat / 512 with
  | 0 => u = { s with ac := s.ac &&& v, mem := u.mem } ∧ ∀ a, u.mem.read a = readAfterEa m s a
  | 1 => u = { withLac s ((specLac s + v.toNat) % 8192) with mem := u.mem } ∧
      ∀ a, u.mem.read a = readAfterEa m s a
  | 2 => u = { s with pc := if v = 4095 then s.pc + 1 else s.pc, mem := u.mem } ∧
      ∀ a, u.mem.read a = if a = ea then v + 1 else readAfterEa m s a
  | 3 => u = { s with ac := 0, mem := u.mem } ∧
      ∀ a, u.mem.read a = if a = ea then s.ac else readAfterEa m s a
  | 4 => u = { s with pc := ea + 1, mem := u.mem } ∧
      ∀ a, u.mem.read a = if a = ea then s.pc else readAfterEa m s a
  | 5 => u = { s with pc := ea, mem := u.mem } ∧ ∀ a, u.mem.read a = readAfterEa m s a
  | 6 =>
    if w = ionWord then u = { s with ie := true, de := true }
    else if w = iofWord then u = { s with ie := false }
    else u = s
  | _ =>
    if w.toNat / 256 = 14 then u = withLac s (specGroup1 (specGroup1Flags w) s)
    else if w.toNat % 2 = 0 then u = specGroup2 (specGroup2Flags w) s
    else u = { s with ac := if w.getLsbD 7 then 0 else s.ac }

/-- `PC` after a cycle that takes no interrupt (44_cycle_scheduler.md R199). -/
def specPcAfter (s : State) : Word :=
  let w := s.mem.read s.pc
  let m := specMemRef w
  let f := specFetched s
  let ea := specEa m f
  if w.toNat / 512 = 2 then (if readAfterEa m f ea = 4095 then s.pc + 2 else s.pc + 1)
  else if w.toNat / 512 = 4 then ea + 1
  else if w.toNat / 512 = 5 then ea
  else if w.toNat / 256 = 15 ∧ w.toNat % 2 = 0 ∧
    specSkips (specGroup2Flags w) s.ac.toNat s.l.toNat then s.pc + 2
  else s.pc + 1

/-- Instructions executed one after another, without fetch and without interrupt check. -/
def execList : List Instr → State → Result
  | [], s => .next s
  | i :: is, s =>
    match exec i s with
    | .next t => execList is t
    | .fault r => .fault r
    | .refused r => .refused r

/-- An outcome with its next state changed by `f`. -/
def mapNext (f : State → State) : Result → Result
  | .next s => .next (f s)
  | .fault r => .fault r
  | .refused r => .refused r

end Sys2Proof.Machine
end

