-- ==== Sys2Proof/Certificates/Slice0/Obligations.lean ====
section
/-! DEFINITION. The statements for the provers. `specDirect`, `specEa`, `readAfterEa`, `specLac` and the
other names that begin with `spec` are the spec's formulas on natural numbers, in Sys2Proof/Safety.lean. -/

open Sys2Proof Sys2Proof.Machine

/-! ## Reset, launch, invariants -/

/-- Derived from 10_state.md R30: `reset()` from any state; the reset constant has the same registers. `RUN`
true is the spec's decision D5 (log 5), `IRQ` and `SR` cleared its decision D15 (log 14). -/
def Obligations.ResetSetsRegistersAndKeepsMemory : Prop :=
  ∀ s : State,
    s.processorReset =
      { ac := 0, l := 0, pc := 0, ir := 0, lpc := 0, run := true, ie := false, irq := false, sr := 0,
        de := false, mem := s.mem } ∧
    State.reset =
      { ac := 0, l := 0, pc := 0, ir := 0, lpc := 0, run := true, ie := false, irq := false, sr := 0,
        de := false, mem := State.reset.mem }

/-- Derived: every launch, with any canonical image and any start address, and the reset constant begin inside
the invariant (the empty memory of the reset constant is log 10). -/
def Obligations.LaunchEstablishesInvariant : Prop :=
  MachineInv State.reset ∧
    ∀ (initMem : Memory) (startPc : Word), initMem.wf = true → MachineInv (State.launch initMem startPc)

/-- Derived from 10_state.md R31, R32 and 43_operate.md R180: every step keeps memory canonical, `DE` the mark
of ION, `IE` set with `DE`, and the halting word in `IR` of a halted machine. It rests on `ionWord` (log 2), the
place of the halt flag (log 3) and the lifetime of `DE` (log 6). -/
def Obligations.StepKeepsMachineInvariant : Prop :=
  ∀ s t : State, MachineInv s → step s = .next t → MachineInv t

/-- Derived: the environment's other operations keep the invariant too, `load_image` also after execution has begun
(the model's choice, log 18). -/
def Obligations.EnvironmentKeepsMachineInvariant : Prop :=
  ∀ (a : EnvAction) (s t : State), a ≠ .step → MachineInv s → perform a s = .next t → MachineInv t

/-- Derived from 00_scope.md R13 and 60_exceptions.md R210: no instruction, no step and no run ends in a fault
or a refusal. -/
def Obligations.EveryStepCompletes : Prop :=
  (∀ (i : Instr) (s : State), ∃ t, exec i s = .next t) ∧
    (∀ s : State, ∃ t, step s = .next t) ∧
    ∀ (inputs : List (Bool × Word)) (s : State), ∃ t, runWith inputs s = .next t

/-! ## Encoding -/

/-- Derived from 30_encoding.md R86: decoding the word of a well-formed instruction gives it back. -/
def Obligations.DecodeOfEncodeIsIdentity : Prop :=
  ∀ i : Instr, i.wellFormed = true → decode (encode i) = i

/-- Derived from 30_encoding.md R98: each of the 4096 words is the word of exactly one well-formed
instruction. -/
def Obligations.EveryWordIsOneInstruction : Prop :=
  ∀ w : Word, ∃ i : Instr, i.wellFormed = true ∧ encode i = w ∧
    ∀ j : Instr, j.wellFormed = true → encode j = w → j = i

/-- Derived from 30_encoding.md R86: the class of each word, with the fields its row extracts. The operate flags
stand where the model puts them (PRESUMED, log 3), and a row of the table other than OPR1, OPR2 and OPR3 takes
its own words (log 16). -/
def Obligations.DecodeFollowsClassTable : Prop :=
  ∀ w : Word,
    (classCondition .and w = true → decode w = .and (specMemRef w)) ∧
    (classCondition .tad w = true → decode w = .tad (specMemRef w)) ∧
    (classCondition .isz w = true → decode w = .isz (specMemRef w)) ∧
    (classCondition .dca w = true → decode w = .dca (specMemRef w)) ∧
    (classCondition .jms w = true → decode w = .jms (specMemRef w)) ∧
    (classCondition .jmp w = true → decode w = .jmp (specMemRef w)) ∧
    (classCondition .ion w = true → decode w = .ion) ∧
    (classCondition .iof w = true → decode w = .iof) ∧
    (classCondition .iot w = true → decode w = .iot (BitVec.ofNat 9 w.toNat)) ∧
    (classCondition .opr1 w = true → (decode w).group1Flags? = some (specGroup1Flags w)) ∧
    (classCondition .opr2 w = true → (decode w).group2Flags? = some (specGroup2Flags w)) ∧
    (classCondition .opr3 w = true →
      decode w = if w = 0o7601#12 then .claGroup3 else .opr3 (w.getLsbD 7) (BitVec.ofNat 6 (w.toNat / 2)))

/-- Derived from words written out in the spec (30_encoding.md R88, R90, R91, R103; 95_test_vectors.md), one or
more of each family; the words of opcodes 6 and 7 are PRESUMED (log 2, log 3). -/
def Obligations.SpecWordsDecode : Prop :=
  decode 0b101110001010#12 = .jmp ⟨true, true, 10⟩ ∧
    decode 0b001011111111#12 = .tad ⟨false, true, 127⟩ ∧
    decode 0b110000000001#12 = .ion ∧
    decode 0b110000000010#12 = .iof ∧
    decode 0b110000000011#12 = .iot 3 ∧
    decode 0b111000001010#12 = .rtr ∧
    decode 0b111000100001#12 = .cia ∧
    decode 0b111000000011#12 = .opr1 { iac := true, two := true } ∧
    decode 0b111110000110#12 = .claOsrHlt ∧
    decode 0b111101001000#12 = .spa ∧
    decode 0b111101101000#12 = .opr2 { sma := true, sza := true, inv := true } ∧
    decode 0b111110000001#12 = .claGroup3 ∧
    decode 0b111100000011#12 = .opr3 false 1

/-! ## Memory -/

/-- Derived (log 10, log 11): the canonical form is one: two canonical memories that read the same at every
address are the same list. -/
def Obligations.CanonicalMemoryIsUnique : Prop :=
  ∀ m m' : Memory, m.wf = true → m'.wf = true → (∀ a, m.read a = m'.read a) → m = m'

/-- 20_memory.md R69: every word reads 0 after `memory_clear()`, and no register changes; `reset()` leaves
memory. -/
def Obligations.MemoryClearZeroesEveryWord : Prop :=
  ∀ (s : State) (a : Word),
    s.memoryClear.mem.read a = 0 ∧ s.memoryClear = { s with mem := s.memoryClear.mem } ∧
      s.processorReset.mem = s.mem

/-- Derived from 20_memory.md R70: an image that fits is stored word by word and nothing else changes; any other
is refused, which is the spec's decision D11 (log 12). That it holds at every state, after execution has begun
too, is the model's choice (log 18). -/
def Obligations.LoadImageStoresWords : Prop :=
  ∀ (words : List Word) (start : Nat) (s : State),
    (start + words.length ≤ 4096 →
      ∃ t, loadImage words start s = .next t ∧ t = { s with mem := t.mem } ∧
        (∀ i v, words[i]? = some v → t.mem.read (mask12 (start + i)) = v) ∧
        ∀ a : Word, a.toNat < start ∨ start + words.length ≤ a.toNat → t.mem.read a = s.mem.read a) ∧
    (4096 < start + words.length → loadImage words start s = .refused .imageDoesNotFit)

/-! ## The effective address -/

/-- 40_effective_address.md R111, R112: the address, and what `EA()` writes, for whatever auto-index range the
parameters give. -/
def Obligations.EffectiveAddressByMode : Prop :=
  ∀ (m : MemRef) (s : State),
    directAddress m s.lpc = specDirect m s.lpc ∧ effectiveAddress m s = specEa m s ∧
      resolve m s = { s with mem := (resolve m s).mem } ∧
      ∀ a, (resolve m s).mem.read a = readAfterEa m s a

/-- Derived from 40_effective_address.md R113: the cell is incremented exactly for an indirect reference whose
direct address is one of the eight cells 8 to 15 (`AUTOINDEX_LAST` 15 is the spec's decision D1, log 1). -/
def Obligations.AutoIndexRangeIsEightCells : Prop :=
  ∀ (m : MemRef) (s : State),
    (autoIncrements m s = true ↔
      m.indirect = true ∧ 8 ≤ (specDirect m s.lpc).toNat ∧ (specDirect m s.lpc).toNat ≤ 15) ∧
    (m.indirect = true → 8 ≤ (specDirect m s.lpc).toNat → (specDirect m s.lpc).toNat ≤ 15 →
      (resolve m s).mem.read (specDirect m s.lpc) = s.mem.read (specDirect m s.lpc) + 1 ∧
        effectiveAddress m s = s.mem.read (specDirect m s.lpc))

/-! ## Memory-reference instructions -/

/-- 41_memory_reference.md R121, with its frame. -/
def Obligations.AndResult : Prop :=
  ∀ (m : MemRef) (s : State), ∃ mem,
    exec (.and m) s =
      .next { s with ac := s.ac &&& readAfterEa m s (effectiveAddress m s), mem := mem } ∧
    ∀ a, mem.read a = readAfterEa m s a

/-- 41_memory_reference.md R122, with its frame. -/
def Obligations.TadResult : Prop :=
  ∀ (m : MemRef) (s : State), ∃ mem,
    exec (.tad m) s =
      .next { withLac s ((s.l.toNat * 4096 + s.ac.toNat +
          (readAfterEa m s (effectiveAddress m s)).toNat) % 8192) with mem := mem } ∧
    ∀ a, mem.read a = readAfterEa m s a

/-- Derived from 41_memory_reference.md R122, R127: the carry out of `AC + M` complements the link. -/
def Obligations.TadCarryComplementsLink : Prop :=
  ∀ (m : MemRef) (s : State), ∃ t, exec (.tad m) s = .next t ∧
    t.ac = s.ac + readAfterEa m s (effectiveAddress m s) ∧
    (4096 ≤ s.ac.toNat + (readAfterEa m s (effectiveAddress m s)).toNat → t.l = ~~~s.l) ∧
    (s.ac.toNat + (readAfterEa m s (effectiveAddress m s)).toNat < 4096 → t.l = s.l)

/-- 41_memory_reference.md R123, with its frame. -/
def Obligations.IszResult : Prop :=
  ∀ (m : MemRef) (s : State), ∃ mem,
    exec (.isz m) s =
      .next { s with
        pc := if readAfterEa m s (effectiveAddress m s) = 4095 then s.pc + 1 else s.pc
        mem := mem } ∧
    ∀ a, mem.read a =
      if a = effectiveAddress m s then readAfterEa m s a + 1 else readAfterEa m s a

/-- 41_memory_reference.md R124, with its frame. -/
def Obligations.DcaResult : Prop :=
  ∀ (m : MemRef) (s : State), ∃ mem,
    exec (.dca m) s = .next { s with ac := 0, mem := mem } ∧
    ∀ a, mem.read a = if a = effectiveAddress m s then s.ac else readAfterEa m s a

/-- 41_memory_reference.md R125, with its frame. -/
def Obligations.JmsResult : Prop :=
  ∀ (m : MemRef) (s : State), ∃ mem,
    exec (.jms m) s = .next { s with pc := effectiveAddress m s + 1, mem := mem } ∧
    ∀ a, mem.read a = if a = effectiveAddress m s then s.pc else readAfterEa m s a

/-- 41_memory_reference.md R126, with its frame. -/
def Obligations.JmpResult : Prop :=
  ∀ (m : MemRef) (s : State), ∃ mem,
    exec (.jmp m) s = .next { s with pc := effectiveAddress m s, mem := mem } ∧
    ∀ a, mem.read a = readAfterEa m s a

/-! ## IOT -/

/-- Derived from 42_iot.md R141: ION sets `IE` and `DE` and nothing else, and its own cycle takes no interrupt,
whatever `IE` and `IRQ` are. `DE` true at the boundary after the cycle is the spec's decision D6 (log 6). -/
def Obligations.IonEffect : Prop :=
  ∀ s : State,
    exec .ion s = .next { s with ie := true, de := true } ∧
    (s.run = true → s.mem.read s.pc = ionWord →
      step s = .next { specFetched s with ie := true, de := true })

/-- Derived from 42_iot.md R142: IOF clears `IE` and nothing else; that its own cycle takes no interrupt,
whatever `IRQ` is, the spec marks as derived from 60_exceptions.md R215. -/
def Obligations.IofEffect : Prop :=
  ∀ s : State,
    exec .iof s = .next { s with ie := false } ∧
    (s.run = true → s.mem.read s.pc = iofWord → step s = .next { specFetched s with ie := false })

/-- 42_iot.md R143: every other opcode-6 word changes nothing, whatever its code. -/
def Obligations.IotNoOperation : Prop :=
  ∀ s : State,
    (∀ code : BitVec 9, exec (.iot code) s = .next s) ∧
    ∀ w : Word, classCondition .iot w = true → exec (decode w) s = .next s

/-! ## Operate, group 1 -/

/-- Derived from 43_operate.md R152: every instruction of class OPR1 performs the sequence of its flags, each
step on the values the steps before it left, and changes `AC` and `L` only. With both rotate directions the last
step is the free value `RotBoth`, the spec's decision D4 (log 4). -/
def Obligations.Group1Sequence : Prop :=
  ∀ (i : Instr) (f : Group1Flags) (s : State), i.group1Flags? = some f →
    exec i s = .next (withLac s (specGroup1 f s))

/-- 43_operate.md R153, R154, R155, R156, R157. -/
def Obligations.Group1ElementaryActions : Prop :=
  ∀ s : State,
    exec .cla s = .next { s with ac := 0 } ∧
    exec .cll s = .next { s with l := 0 } ∧
    exec .cma s = .next { s with ac := BitVec.ofNat 12 (4095 - s.ac.toNat) } ∧
    exec .cml s = .next { s with l := BitVec.ofNat 1 (1 - s.l.toNat) } ∧
    exec .iac s =
      .next { s with
        ac := if s.ac = 4095 then 0 else s.ac + 1
        l := if s.ac = 4095 then 1 - s.l else s.l }

/-- 43_operate.md R158, R159, R160, R161 in register terms. -/
def Obligations.RotatesInRegisterTerms : Prop :=
  ∀ s : State,
    exec .rar s =
      .next { s with
        l := BitVec.ofNat 1 (s.ac.toNat % 2)
        ac := BitVec.ofNat 12 (s.ac.toNat / 2 + s.l.toNat * 2048) } ∧
    exec .ral s =
      .next { s with
        l := BitVec.ofNat 1 (s.ac.toNat / 2048)
        ac := BitVec.ofNat 12 (s.ac.toNat * 2 % 4096 + s.l.toNat) } ∧
    exec .rtr s =
      .next { s with
        l := BitVec.ofNat 1 (s.ac.toNat / 2 % 2)
        ac := BitVec.ofNat 12 (s.ac.toNat / 4 + s.l.toNat * 1024 + s.ac.toNat % 2 * 2048) } ∧
    exec .rtl s =
      .next { s with
        l := BitVec.ofNat 1 (s.ac.toNat / 1024 % 2)
        ac := BitVec.ofNat 12 (s.ac.toNat * 4 % 4096 + s.l.toNat * 2 + s.ac.toNat / 2048) }

/-- Derived from 43_operate.md R165: the rotates permute the 13 bits, and the complements are involutions. -/
def Obligations.RotatesAndComplementsUndo : Prop :=
  ∀ s : State,
    execList [.ral, .rar] s = .next s ∧ execList [.rar, .ral] s = .next s ∧
    execList (List.replicate 13 .ral) s = .next s ∧ execList (List.replicate 13 .rar) s = .next s ∧
    execList (List.replicate 6 .rtl ++ [.ral]) s = .next s ∧
    execList [.cma, .cma] s = .next s ∧ execList [.cml, .cml] s = .next s

/-- 43_operate.md R162: without a direction the twice flag does nothing: its word alone changes nothing, and of
two words that differ in it only, both do the same. -/
def Obligations.TwiceFlagAloneRotatesNothing : Prop :=
  (∀ s : State, exec .twiceFlagAlone s = .next s) ∧
    ∀ (i j : Instr) (f g : Group1Flags) (s : State),
      i.group1Flags? = some f → j.group1Flags? = some g → f.rar = false → f.ral = false →
      g = { f with two := !f.two } → exec i s = exec j s

/-- Derived from 43_operate.md R163 and R181, which the spec derives from R152, R168 and R169: the words without
a flag change nothing. -/
def Obligations.FlaglessOperateWordsDoNothing : Prop :=
  ∀ s : State, exec .nop s = .next s ∧ exec .group2NoFlag s = .next s

/-- Derived from 43_operate.md R164 and the spec's decision D4 (log 4): steps 1 to 5 as usual, then whatever
`RotBoth` is, and nothing else changes. -/
def Obligations.BothDirectionsApplyRotBoth : Prop :=
  ∀ (cla cll cma cml two iac : Bool) (s : State),
    exec (.bothRotateDirections cla cll cma cml two iac) s =
      .next (withLac s (Config.rotBoth
        (BitVec.ofNat 13 (specBeforeRotate ⟨cla, cll, cma, cml, true, true, two, iac⟩ s)) two).toNat)

/-- Derived from 43_operate.md R186, which the spec derives from R152 and R168: the named combinations. -/
def Obligations.NamedCombinations : Prop :=
  ∀ s : State,
    exec .claCll s = .next { s with ac := 0, l := 0 } ∧
    exec .sta s = .next { s with ac := 4095 } ∧
    exec .stl s = .next { s with l := 1 } ∧
    exec .cia s =
      .next { s with
        ac := BitVec.ofNat 12 ((4096 - s.ac.toNat) % 4096)
        l := if s.ac = 0 then 1 - s.l else s.l } ∧
    exec .claIac s = .next { s with ac := 1 } ∧
    exec .glk s = .next { s with ac := BitVec.ofNat 12 s.l.toNat, l := 0 } ∧
    exec .cllRal s =
      .next { s with
        ac := BitVec.ofNat 12 (2 * s.ac.toNat % 4096), l := BitVec.ofNat 1 (s.ac.toNat / 2048) } ∧
    exec .cllRar s =
      .next { s with ac := BitVec.ofNat 12 (s.ac.toNat / 2), l := BitVec.ofNat 1 (s.ac.toNat % 2) } ∧
    exec .iacRal s = execList [.iac, .ral] s ∧
    exec .las s = .next { s with ac := s.sr } ∧
    exec .szaCla s = .next { s with pc := if s.ac = 0 then s.pc + 1 else s.pc, ac := 0 } ∧
    exec .claOsrHlt s = .next { s with ac := s.sr, run := false } ∧
    exec .skpHlt s = .next { s with pc := s.pc + 1, run := false }

/-- Derived from 43_operate.md R186's premises and 30_encoding.md R103: the increment-and-rotate word, and the
skip-and-clear words R186 does not list. -/
def Obligations.SkipAndClearCombinations : Prop :=
  ∀ s : State,
    exec .iacRal s = .next (withLac s (specRol ((specLac s + 1) % 8192))) ∧
    exec .snaCla s = .next { s with pc := if s.ac = 0 then s.pc else s.pc + 1, ac := 0 } ∧
    exec .smaCla s = .next { s with pc := if 2048 ≤ s.ac.toNat then s.pc + 1 else s.pc, ac := 0 } ∧
    exec .spaCla s = .next { s with pc := if s.ac.toNat < 2048 then s.pc + 1 else s.pc, ac := 0 }

/-! ## Operate, group 2 -/

/-- 43_operate.md R168, R169, R178, R179: every instruction of class OPR2 performs the sequence of its flags:
the skip test on the values on entry, then clear, OR switches, halt; `L` and memory are unchanged. -/
def Obligations.Group2Sequence : Prop :=
  ∀ (i : Instr) (f : Group2Flags) (s : State), i.group2Flags? = some f →
    exec i s = .next (specGroup2 f s)

/-- 43_operate.md R170 to R176: the seven skips, which change `PC` only. -/
def Obligations.SkipTests : Prop :=
  ∀ s : State,
    exec .snl s = .next { s with pc := if s.l = 1 then s.pc + 1 else s.pc } ∧
    exec .sma s = .next { s with pc := if s.ac.toNat ≥ 2048 then s.pc + 1 else s.pc } ∧
    exec .sza s = .next { s with pc := if s.ac = 0 then s.pc + 1 else s.pc } ∧
    exec .szl s = .next { s with pc := if s.l = 0 then s.pc + 1 else s.pc } ∧
    exec .spa s = .next { s with pc := if s.ac.toNat < 2048 then s.pc + 1 else s.pc } ∧
    exec .sna s = .next { s with pc := if s.ac.toNat > 0 then s.pc + 1 else s.pc } ∧
    exec .skp s = .next { s with pc := s.pc + 1 }

/-- 43_operate.md R177: combined test flags are an OR in both senses, for every group 2 instruction that tests,
and on the words of the rule's table and text. -/
def Obligations.CombinedSkipTestsAreOr : Prop :=
  ∀ s : State,
    (∀ (i : Instr) (f : Group2Flags), i.group2Flags? = some f →
      f.sma = true ∨ f.sza = true ∨ f.snl = true → ∃ t, exec i s = .next t ∧
        t.pc =
          if (f.sma = true ∧ (s.ac.toNat ≥ 2048 ↔ f.inv = false)) ∨
            (f.sza = true ∧ (s.ac = 0 ↔ f.inv = false)) ∨ (f.snl = true ∧ (s.l = 1 ↔ f.inv = false))
          then s.pc + 1 else s.pc) ∧
    exec (.opr2 { sma := true, sza := true }) s =
      .next { s with pc := if s.ac.toNat ≥ 2048 ∨ s.ac = 0 then s.pc + 1 else s.pc } ∧
    exec (.opr2 { sma := true, sza := true, inv := true }) s = .next { s with pc := s.pc + 1 } ∧
    exec (.opr2 { sza := true, snl := true, inv := true }) s =
      .next { s with pc := if s.ac.toNat > 0 ∨ s.l = 0 then s.pc + 1 else s.pc } ∧
    exec (.opr2 { sma := true, snl := true, inv := true }) s =
      .next { s with pc := if s.ac.toNat < 2048 ∨ s.l = 0 then s.pc + 1 else s.pc } ∧
    exec (.opr2 { sma := true, sza := true, snl := true, inv := true }) s =
      .next { s with pc := s.pc + 1 }

/-- Derived from 43_operate.md R178, R179, R180: the words with one of these flags alone, execute step. -/
def Obligations.ClearSwitchOrHalt : Prop :=
  ∀ s : State,
    exec .claGroup2 s = .next { s with ac := 0 } ∧
    exec .osr s = .next { s with ac := s.ac ||| s.sr } ∧
    exec .hlt s = .next { s with run := false }

/-! ## Operate, group 3 -/

/-- Derived from 43_operate.md R183, R184, R185 and the spec's decision D7 (log 7): only the clear acts, for
every value of the extension bits, at the level of the instruction and of the word. -/
def Obligations.Group3OnlyClears : Prop :=
  (∀ (cla : Bool) (ext : BitVec 6) (s : State),
    exec (.opr3 cla ext) s = .next { s with ac := if cla then 0 else s.ac } ∧
    exec .claGroup3 s = .next { s with ac := 0 }) ∧
  ∀ (w : Word) (s : State), classCondition .opr3 w = true →
    exec (decode w) s = .next { s with ac := if w.getLsbD 7 then 0 else s.ac }

/-! ## The cycle -/

/-- Derived from 44_cycle_scheduler.md R190, R192 (`DE` is cleared first by the spec's decision D6, log 6): a
step at a RUNNING state runs the instruction at `PC` on the fetched state, then makes the deferred-enable and
interrupt checks, of a halting instruction too (log 13). -/
def Obligations.StepRunsDecodedInstruction : Prop :=
  ∀ (s : State) (i : Instr), s.run = true → decode (s.mem.read s.pc) = i → i.wellFormed = true →
    ∃ u t, exec i (specFetched s) = .next u ∧
      ((specTakes u ∧ EntryOf u t) ∨ (¬specTakes u ∧ t = u)) ∧ step s = .next t

/-- Derived from 44_cycle_scheduler.md R190 (with the spec's decision D6 on `DE`, log 6, the operate flags of
log 3, and the entry in a halting cycle, log 13): for every RUNNING state the step is the cycle the spec writes,
the execute step read off the word by the spec's formulas on numbers. -/
def Obligations.CycleRefinesSpec : Prop :=
  ∀ s : State, s.run = true →
    ∃ u t, SpecExecute (s.mem.read s.pc) (specFetched s) u ∧
      ((specTakes u ∧ EntryOf u t) ∨ (¬specTakes u ∧ t = u)) ∧ step s = .next t

/-- Derived from 44_cycle_scheduler.md R191 and 10_state.md R24, R25: after any cycle `IR` is the word that was
at the old `PC`, and `LPC` is the old `PC`. -/
def Obligations.CycleRecordsFetch : Prop :=
  ∀ s t : State, s.run = true → step s = .next t → t.ir = s.mem.read s.pc ∧ t.lpc = s.pc

/-- Derived from 44_cycle_scheduler.md R198 and the spec's decision D8 (log 8): in HALTED nothing changes,
however often the environment steps. -/
def Obligations.HaltedIsTerminal : Prop :=
  ∀ (n : Nat) (s : State), s.run = false →
    step s = .next s ∧ runSteps n s = .next s ∧ runUntilHalt n s = some s

/-- Derived from 44_cycle_scheduler.md R199, which the spec derives from R191 and the instruction rules: how
each word leaves `PC` when no interrupt is requested. The places of the test and sense flags of a group 2 word
are PRESUMED (log 3). -/
def Obligations.PcAfterCycle : Prop :=
  ∀ s t : State, s.run = true → s.irq = false → step s = .next t → t.pc = specPcAfter s

/-- Derived from 44_cycle_scheduler.md R205 (the bounded form is log 17): a run to the halt ends HALTED, is the
same iteration of `step()`, and executes no further cycle. That steps past the halt change nothing is the spec's
decision D8 (log 8). -/
def Obligations.RunUntilHaltStopsAtHalt : Prop :=
  ∀ (n k : Nat) (s t : State), runUntilHalt n s = some t →
    t.run = false ∧ runSteps n s = .next t ∧ runUntilHalt (n + k) s = some t

/-! ## Interrupts -/

/-- Derived from 60_exceptions.md R215 and R216: with `IE` and `IRQ` true, the cycle of any word but ION and IOF
ends with the entry, after the instruction's own effects; of a halting word too, which the spec infers in R222
(log 13). -/
def Obligations.InterruptEntryAfterInstruction : Prop :=
  ∀ s : State, s.run = true → s.ie = true → s.irq = true →
    s.mem.read s.pc ≠ ionWord → s.mem.read s.pc ≠ iofWord →
    ∃ u t, exec (decode (s.mem.read s.pc)) (specFetched s) = .next u ∧ EntryOf u t ∧ step s = .next t

/-- Derived from 60_exceptions.md R212, R213, R215: with `IE` false, or no request, the cycle of any word but
ION ends without an entry. -/
def Obligations.MaskedInterruptIsHeld : Prop :=
  ∀ s : State, s.run = true → s.ie = false ∨ s.irq = false → s.mem.read s.pc ≠ ionWord →
    step s = exec (decode (s.mem.read s.pc)) (specFetched s)

/-- Derived from 10_state.md R31 and 60_exceptions.md R214 (the lifetime is log 6): at a cycle boundary `DE` is
true exactly when the cycle's word was ION. -/
def Obligations.DeferredEnableMarksIon : Prop :=
  ∀ s t : State, s.run = true → step s = .next t → (t.de = true ↔ s.mem.read s.pc = ionWord)

/-- Derived from 60_exceptions.md R219, timeline A, which the spec derives from R214 and R215: a request
asserted at an ION is taken after the next instruction. `DE` true between the two cycles is the spec's decision
D6 (log 6), the entry after a halting next word its inference R222 (log 13). -/
def Obligations.InterruptLatencyIsOneInstruction : Prop :=
  ∀ s : State, s.run = true → s.irq = true → s.mem.read s.pc = ionWord →
    s.mem.read (s.pc + 1) ≠ ionWord → s.mem.read (s.pc + 1) ≠ iofWord →
    ∃ u t, step s = .next { specFetched s with ie := true, de := true } ∧
      exec (decode (s.mem.read (s.pc + 1)))
        (specFetched { specFetched s with ie := true, de := true }) = .next u ∧
      EntryOf u t ∧ runSteps 2 s = .next t

/-- Derived from 60_exceptions.md R220, 70_reset_and_hazards.md R251, which the spec derives: `ION; JMP I 0`
returns to the saved address with interrupts on; with the request still asserted the handler is entered again
and the saved address is kept. -/
def Obligations.InterruptReturnSequence : Prop :=
  ∀ s : State, s.run = true → s.mem.read s.pc = ionWord → s.mem.read (s.pc + 1) = 0o5400#12 →
    (s.irq = false →
      runSteps 2 s =
        .next { s with
          ir := 0o5400#12, lpc := s.pc + 1, pc := s.mem.read 0, ie := true, de := false }) ∧
    (s.irq = true →
      ∃ t, runSteps 2 s = .next t ∧ t.pc = 1 ∧ t.ie = false ∧ ∀ a, t.mem.read a = s.mem.read a)

/-- Derived from 60_exceptions.md R222, which the spec derives from R190 and R195 (log 13; the halt flag, log
3): a halt with an interrupt in the same cycle performs the entry and ends HALTED. That further steps change
nothing is the spec's decision D8 (log 8). -/
def Obligations.HaltStillTakesInterrupt : Prop :=
  ∀ s : State, s.run = true → s.ie = true → s.irq = true →
    s.mem.read s.pc &&& 0o7403#12 = 0o7402#12 →
    ∃ t, step s = .next t ∧ t.run = false ∧ t.pc = 1 ∧ t.ie = false ∧
      t.mem.read 0 =
        (if specSkips (specGroup2Flags (s.mem.read s.pc)) s.ac.toNat s.l.toNat then s.pc + 2
          else s.pc + 1) ∧
      (∀ a, a ≠ 0 → t.mem.read a = s.mem.read a) ∧ ∀ n, runSteps n t = .next t

/-! ## Whole-machine rules -/

/-- Derived from 10_state.md R26: a cycle halts the machine exactly when its word is a group 2 word with the
halt flag. -/
def Obligations.OnlyHaltWordsHalt : Prop :=
  ∀ s t : State, s.run = true → step s = .next t →
    (t.run = false ↔ s.mem.read s.pc &&& 0o7403#12 = 0o7402#12)

/-- Derived from 10_state.md R28, R29: no cycle writes `IRQ` or `SR`. -/
def Obligations.CycleNeverWritesInputs : Prop :=
  ∀ s t : State, step s = .next t → t.irq = s.irq ∧ t.sr = s.sr

/-- Derived from 10_state.md R22: a word that is neither TAD nor group 1 leaves the link, interrupt entry
included. -/
def Obligations.OnlyTadAndGroup1WriteLink : Prop :=
  ∀ s t : State, s.run = true → step s = .next t → (s.mem.read s.pc).toNat / 512 ≠ 1 →
    (s.mem.read s.pc).toNat / 256 ≠ 14 → t.l = s.l

/-- Derived from 42_iot.md R144, 43_operate.md R150 and 60_exceptions.md R215: a word of opcode 6 or 7 changes
no word of memory but word 0, and that one only when an interrupt can be taken, `IE` and `IRQ` being true before
the cycle. -/
def Obligations.IotAndOperateKeepMemory : Prop :=
  ∀ s t : State, s.run = true → step s = .next t → 6 ≤ (s.mem.read s.pc).toNat / 512 →
    ∀ a : Word, a ≠ 0 ∨ s.irq = false ∨ s.ie = false → t.mem.read a = s.mem.read a

/-- Derived from 20_memory.md R52, R71: the only words a cycle can change are the pointer cell of an
auto-indexed reference, the effective address of ISZ, DCA and JMS, and word 0 when an interrupt can be taken,
`IE` and `IRQ` being true before the cycle. -/
def Obligations.CycleMemoryFrame : Prop :=
  ∀ (s t : State) (a : Word), s.run = true → step s = .next t →
    ¬((s.mem.read s.pc).toNat / 512 < 6 ∧
      specAutoIndexes (specMemRef (s.mem.read s.pc)) (specFetched s) = true ∧
      a = specDirect (specMemRef (s.mem.read s.pc)) s.pc) →
    ¬(2 ≤ (s.mem.read s.pc).toNat / 512 ∧ (s.mem.read s.pc).toNat / 512 ≤ 4 ∧
      a = specEa (specMemRef (s.mem.read s.pc)) (specFetched s)) →
    ¬(s.ie = true ∧ s.irq = true ∧ a = 0) →
    t.mem.read a = s.mem.read a

/-- Derived from 60_exceptions.md R212 (95_test_vectors.md Q10): while `IE` stays false the run does not depend
on `IRQ`, neither on its value in a run without writes of the environment nor on the values presented before the
cycles of a run. -/
def Obligations.RequestInvisibleWhileDisabled : Prop :=
  ∀ (s : State) (b : Bool),
    (∀ n : Nat, (∀ k, k ≤ n → ∀ u, runSteps k s = .next u → u.ie = false) →
      runSteps n (s.setIrq b) = mapNext (fun u => u.setIrq b) (runSteps n s)) ∧
    ∀ inputs others : List (Bool × Word), inputs.map Prod.snd = others.map Prod.snd →
      (∀ k, k ≤ inputs.length → ∀ u, runWith (inputs.take k) s = .next u → u.ie = false) →
      ∃ t u, runWith inputs s = .next t ∧ runWith others (s.setIrq b) = .next u ∧ u = t.setIrq u.irq

/-- Derived from 10_state.md R29: only a group 2 word with the switch-OR flag can tell the switches. -/
def Obligations.SwitchesSeenOnlyBySwitchOr : Prop :=
  ∀ (s : State) (v : Word),
    ¬((s.mem.read s.pc).toNat / 256 = 15 ∧ (s.mem.read s.pc).toNat % 2 = 0 ∧
      (s.mem.read s.pc).getLsbD 2 = true) →
    step (s.setSr v) = mapNext (fun u => u.setSr v) (step s)

/-- Derived from 41_memory_reference.md R128, `X` being the effective address of any JMS. The call leaves the
return address in `X` and goes on after it. From any later state that still holds it there, any `JMP I X`, of
either page bit and at any address, returns to the word after the JMS. With that `JMP I X` in the word after `X`,
the two steps change nothing else but `X` and an auto-index cell of the JMS. With `IE` and `IRQ` true the call and
the return each end in the interrupt entry, which saves the address they went to. -/
def Obligations.SubroutineCallReturns : Prop :=
  ∀ (s : State) (m : MemRef) (x : Word), s.run = true → s.mem.read s.pc = encode (.jms m) →
    x = specEa m (specFetched s) →
    (∃ t, step s = .next t ∧ t.ac = s.ac ∧ t.l = s.l ∧
      (s.ie = false ∨ s.irq = false → t.pc = x + 1 ∧ t.mem.read x = s.pc + 1) ∧
      (s.ie = true → s.irq = true →
        t.pc = 1 ∧ t.mem.read 0 = x + 1 ∧ (x ≠ 0 → t.mem.read x = s.pc + 1))) ∧
    (∀ (r : State) (j : MemRef), r.run = true → r.mem.read r.pc = encode (.jmp j) → j.indirect = true →
      specDirect j r.pc = x → r.mem.read x = s.pc + 1 →
      ∃ u, step r = .next u ∧ u.ac = r.ac ∧ u.l = r.l ∧
        (r.ie = false ∨ r.irq = false → u.pc = s.pc + 1) ∧
        (r.ie = true → r.irq = true → u.pc = 1 ∧ u.mem.read 0 = s.pc + 1)) ∧
    ∀ j : MemRef, s.ie = false ∨ s.irq = false → j.indirect = true → specDirect j (x + 1) = x →
      readAfterEa m (specFetched s) (x + 1) = encode (.jmp j) →
      ∃ t, runSteps 2 s = .next t ∧ t.pc = s.pc + 1 ∧ t.ac = s.ac ∧ t.l = s.l ∧
        ∀ a, a ≠ x → t.mem.read a = readAfterEa m (specFetched s) a

/-- Derived from 20_memory.md R67: a word stored over the next instruction is the one fetched next. -/
def Obligations.StoredWordIsFetchedNext : Prop :=
  ∀ (s : State) (m : MemRef), s.run = true → s.irq = false →
    s.mem.read s.pc = encode (.dca m) → specEa m (specFetched s) = s.pc + 1 →
    ∃ t, runSteps 2 s = .next t ∧ t.ir = s.ac ∧ t.lpc = s.pc + 1
end

