-- ==== Sys2Proof/Laws/Memory.lean ====
section
/-! SUPPORT. Memory: read after write, and the canonical form. -/

namespace Sys2Proof.Machine

theorem Memory.lookup_erase_same (m : Memory) (a : Nat) :
    Memory.lookup (Memory.erase m a) a = Memory.unlisted := by
  induction m with
  | nil => rfl
  | cons c m ih =>
    obtain ⟨b, w⟩ := c
    by_cases h : b = a
    · simpa [Memory.erase, h] using ih
    · simpa [Memory.erase, Memory.lookup, h] using ih

theorem Memory.lookup_erase_other (m : Memory) {a b : Nat} (h : b ≠ a) :
    Memory.lookup (Memory.erase m a) b = Memory.lookup m b := by
  induction m with
  | nil => rfl
  | cons c m ih =>
    obtain ⟨x, w⟩ := c
    by_cases hx : x = a
    · have : x ≠ b := by omega
      simpa [Memory.erase, Memory.lookup, hx, Ne.symm h] using ih
    · by_cases hb : x = b
      · simp [Memory.erase, Memory.lookup, hb, h]
      · simpa [Memory.erase, Memory.lookup, hx, hb] using ih

theorem Memory.lookup_insert_other (m : Memory) {a b : Nat} (v : Word) (h : b ≠ a) :
    Memory.lookup (Memory.insert m a v) b = Memory.lookup m b := by
  induction m with
  | nil => simp [Memory.insert, Memory.lookup, Ne.symm h]
  | cons c m ih =>
    obtain ⟨x, w⟩ := c
    by_cases hx : a < x
    · simp [Memory.insert, Memory.lookup, hx, Ne.symm h]
    · simp only [Memory.insert, hx, if_false, Memory.lookup, ih]

theorem Memory.lookup_insert_same (m : Memory) (a : Nat) (v : Word) (h : ∀ c ∈ m, c.1 ≠ a) :
    Memory.lookup (Memory.insert m a v) a = v := by
  induction m with
  | nil => simp [Memory.insert, Memory.lookup]
  | cons c m ih =>
    obtain ⟨x, w⟩ := c
    have hxa : x ≠ a := h (x, w) List.mem_cons_self
    by_cases hx : a < x
    · simp [Memory.insert, Memory.lookup, hx]
    · simp only [Memory.insert, hx, if_false, Memory.lookup, hxa]
      exact ih fun c hc => h c (List.mem_cons_of_mem _ hc)

theorem Memory.erase_ne (m : Memory) (a : Nat) : ∀ c ∈ Memory.erase m a, c.1 ≠ a := by
  intro c hc
  simpa [Memory.erase] using (List.mem_filter.mp hc).2

/-- Read after write, at every address and for every list of cells. -/
theorem Memory.read_write (m : Memory) (a v b : Word) :
    (m.write a v).read b = if b = a then v else m.read b := by
  by_cases h : b = a
  · subst h
    by_cases hv : v = Memory.unlisted
    · simp [Memory.write, Memory.read, hv, Memory.lookup_erase_same]
    · simp [Memory.write, Memory.read, hv, Memory.lookup_insert_same _ _ _ (Memory.erase_ne m _)]
  · have hn : b.toNat ≠ a.toNat := fun e => h (BitVec.eq_of_toNat_eq e)
    by_cases hv : v = Memory.unlisted
    · simp [Memory.write, Memory.read, hv, h, Memory.lookup_erase_other m hn]
    · simp [Memory.write, Memory.read, hv, h, Memory.lookup_insert_other _ v hn,
        Memory.lookup_erase_other m hn]

@[simp] theorem Memory.read_write_same (m : Memory) (a v : Word) : (m.write a v).read a = v := by
  simp [Memory.read_write]

theorem Memory.read_write_other (m : Memory) (v : Word) {a b : Word} (h : b ≠ a) :
    (m.write a v).read b = m.read b := by
  simp [Memory.read_write, h]

@[simp] theorem Memory.read_nil (a : Word) : Memory.read [] a = 0 := rfl

/-! ## The canonical form -/

theorem Memory.risingFrom_le {lo lo' : Nat} (m : Memory) (h : lo' ≤ lo)
    (hm : Memory.risingFrom lo m = true) : Memory.risingFrom lo' m = true := by
  cases m with
  | nil => rfl
  | cons c m =>
    simp only [Memory.risingFrom, Bool.and_eq_true, decide_eq_true_eq] at *
    exact ⟨by omega, hm.2⟩

theorem Memory.risingFrom_erase (m : Memory) (a lo : Nat) (hm : Memory.risingFrom lo m = true) :
    Memory.risingFrom lo (Memory.erase m a) = true := by
  induction m generalizing lo with
  | nil => rfl
  | cons c m ih =>
    obtain ⟨b, w⟩ := c
    simp only [Memory.risingFrom, Bool.and_eq_true, decide_eq_true_eq] at hm
    by_cases h : b = a
    · have := Memory.risingFrom_le _ (by omega : lo ≤ b + 1) (ih _ hm.2)
      simpa [Memory.erase, h] using this
    · have := ih _ hm.2
      simp only [Memory.erase] at this
      simp [Memory.erase, h, Memory.risingFrom, hm.1, this]

theorem Memory.risingFrom_insert (m : Memory) (a lo : Nat) (v : Word) (hlo : lo ≤ a)
    (hm : Memory.risingFrom lo m = true) (hne : ∀ c ∈ m, c.1 ≠ a) :
    Memory.risingFrom lo (Memory.insert m a v) = true := by
  induction m generalizing lo with
  | nil => simp [Memory.insert, Memory.risingFrom, hlo]
  | cons c m ih =>
    obtain ⟨b, w⟩ := c
    simp only [Memory.risingFrom, Bool.and_eq_true, decide_eq_true_eq] at hm
    have hba : b ≠ a := hne (b, w) List.mem_cons_self
    by_cases h : a < b
    · have : a + 1 ≤ b := h
      simp [Memory.insert, h, Memory.risingFrom, hlo, hm.2, this]
    · have := ih (b + 1) (by omega) hm.2 fun c hc => hne c (List.mem_cons_of_mem _ hc)
      simp [Memory.insert, h, Memory.risingFrom, hm.1, this]

theorem Memory.all_insert (p : Cell → Bool) (m : Memory) (a : Nat) (v : Word) :
    (Memory.insert m a v).all p = (p (a, v) && m.all p) := by
  induction m with
  | nil => rfl
  | cons c m ih =>
    obtain ⟨b, w⟩ := c
    by_cases h : a < b
    · simp [Memory.insert, h]
    · simp only [Memory.insert, h, if_false, List.all_cons, ih]
      exact Bool.and_left_comm _ _ _

theorem Memory.all_erase (p : Cell → Bool) (m : Memory) (a : Nat) (h : m.all p = true) :
    (Memory.erase m a).all p = true := by
  simp only [List.all_eq_true] at *
  exact fun c hc => h c (List.mem_filter.mp hc).1

/-- A write keeps the canonical form. -/
theorem Memory.wf_write (m : Memory) (a v : Word) (h : m.wf = true) : (m.write a v).wf = true := by
  simp only [Memory.wf, Bool.and_eq_true] at *
  have hr := Memory.risingFrom_erase m a.toNat 0 h.1
  have ha := Memory.all_erase _ m a.toNat h.2
  by_cases hv : v = Memory.unlisted
  · simp only [Memory.write, if_pos hv]
    exact ⟨hr, ha⟩
  · simp only [Memory.write, if_neg hv, Memory.all_insert]
    refine ⟨Memory.risingFrom_insert _ _ _ _ (Nat.zero_le _) hr (Memory.erase_ne m _), ?_⟩
    simp only [Bool.and_eq_true, decide_eq_true_eq, bne_iff_ne, ne_eq]
    exact ⟨⟨a.isLt, hv⟩, ha⟩

theorem Memory.wf_nil : Memory.wf [] = true := rfl

theorem State.reset_mem_wf : State.reset.mem.wf = true := rfl

end Sys2Proof.Machine
end

