-- ==== Sys2Proof/Laws/State.lean ====
section
/-! SUPPORT. One lemma per field per update of State. -/

namespace Sys2Proof.Machine

variable (s : State)

/-! ### setAc -/

@[simp] theorem State.setAc_ac (v : Word) : (s.setAc v).ac = v := rfl
@[simp] theorem State.setAc_l (v : Word) : (s.setAc v).l = s.l := rfl
@[simp] theorem State.setAc_pc (v : Word) : (s.setAc v).pc = s.pc := rfl
@[simp] theorem State.setAc_ir (v : Word) : (s.setAc v).ir = s.ir := rfl
@[simp] theorem State.setAc_lpc (v : Word) : (s.setAc v).lpc = s.lpc := rfl
@[simp] theorem State.setAc_run (v : Word) : (s.setAc v).run = s.run := rfl
@[simp] theorem State.setAc_ie (v : Word) : (s.setAc v).ie = s.ie := rfl
@[simp] theorem State.setAc_irq (v : Word) : (s.setAc v).irq = s.irq := rfl
@[simp] theorem State.setAc_sr (v : Word) : (s.setAc v).sr = s.sr := rfl
@[simp] theorem State.setAc_de (v : Word) : (s.setAc v).de = s.de := rfl
@[simp] theorem State.setAc_mem (v : Word) : (s.setAc v).mem = s.mem := rfl

/-! ### setL -/

@[simp] theorem State.setL_ac (v : BitVec 1) : (s.setL v).ac = s.ac := rfl
@[simp] theorem State.setL_l (v : BitVec 1) : (s.setL v).l = v := rfl
@[simp] theorem State.setL_pc (v : BitVec 1) : (s.setL v).pc = s.pc := rfl
@[simp] theorem State.setL_ir (v : BitVec 1) : (s.setL v).ir = s.ir := rfl
@[simp] theorem State.setL_lpc (v : BitVec 1) : (s.setL v).lpc = s.lpc := rfl
@[simp] theorem State.setL_run (v : BitVec 1) : (s.setL v).run = s.run := rfl
@[simp] theorem State.setL_ie (v : BitVec 1) : (s.setL v).ie = s.ie := rfl
@[simp] theorem State.setL_irq (v : BitVec 1) : (s.setL v).irq = s.irq := rfl
@[simp] theorem State.setL_sr (v : BitVec 1) : (s.setL v).sr = s.sr := rfl
@[simp] theorem State.setL_de (v : BitVec 1) : (s.setL v).de = s.de := rfl
@[simp] theorem State.setL_mem (v : BitVec 1) : (s.setL v).mem = s.mem := rfl

/-! ### setPc -/

@[simp] theorem State.setPc_ac (v : Word) : (s.setPc v).ac = s.ac := rfl
@[simp] theorem State.setPc_l (v : Word) : (s.setPc v).l = s.l := rfl
@[simp] theorem State.setPc_pc (v : Word) : (s.setPc v).pc = v := rfl
@[simp] theorem State.setPc_ir (v : Word) : (s.setPc v).ir = s.ir := rfl
@[simp] theorem State.setPc_lpc (v : Word) : (s.setPc v).lpc = s.lpc := rfl
@[simp] theorem State.setPc_run (v : Word) : (s.setPc v).run = s.run := rfl
@[simp] theorem State.setPc_ie (v : Word) : (s.setPc v).ie = s.ie := rfl
@[simp] theorem State.setPc_irq (v : Word) : (s.setPc v).irq = s.irq := rfl
@[simp] theorem State.setPc_sr (v : Word) : (s.setPc v).sr = s.sr := rfl
@[simp] theorem State.setPc_de (v : Word) : (s.setPc v).de = s.de := rfl
@[simp] theorem State.setPc_mem (v : Word) : (s.setPc v).mem = s.mem := rfl

/-! ### setIr -/

@[simp] theorem State.setIr_ac (v : Word) : (s.setIr v).ac = s.ac := rfl
@[simp] theorem State.setIr_l (v : Word) : (s.setIr v).l = s.l := rfl
@[simp] theorem State.setIr_pc (v : Word) : (s.setIr v).pc = s.pc := rfl
@[simp] theorem State.setIr_ir (v : Word) : (s.setIr v).ir = v := rfl
@[simp] theorem State.setIr_lpc (v : Word) : (s.setIr v).lpc = s.lpc := rfl
@[simp] theorem State.setIr_run (v : Word) : (s.setIr v).run = s.run := rfl
@[simp] theorem State.setIr_ie (v : Word) : (s.setIr v).ie = s.ie := rfl
@[simp] theorem State.setIr_irq (v : Word) : (s.setIr v).irq = s.irq := rfl
@[simp] theorem State.setIr_sr (v : Word) : (s.setIr v).sr = s.sr := rfl
@[simp] theorem State.setIr_de (v : Word) : (s.setIr v).de = s.de := rfl
@[simp] theorem State.setIr_mem (v : Word) : (s.setIr v).mem = s.mem := rfl

/-! ### setLpc -/

@[simp] theorem State.setLpc_ac (v : Word) : (s.setLpc v).ac = s.ac := rfl
@[simp] theorem State.setLpc_l (v : Word) : (s.setLpc v).l = s.l := rfl
@[simp] theorem State.setLpc_pc (v : Word) : (s.setLpc v).pc = s.pc := rfl
@[simp] theorem State.setLpc_ir (v : Word) : (s.setLpc v).ir = s.ir := rfl
@[simp] theorem State.setLpc_lpc (v : Word) : (s.setLpc v).lpc = v := rfl
@[simp] theorem State.setLpc_run (v : Word) : (s.setLpc v).run = s.run := rfl
@[simp] theorem State.setLpc_ie (v : Word) : (s.setLpc v).ie = s.ie := rfl
@[simp] theorem State.setLpc_irq (v : Word) : (s.setLpc v).irq = s.irq := rfl
@[simp] theorem State.setLpc_sr (v : Word) : (s.setLpc v).sr = s.sr := rfl
@[simp] theorem State.setLpc_de (v : Word) : (s.setLpc v).de = s.de := rfl
@[simp] theorem State.setLpc_mem (v : Word) : (s.setLpc v).mem = s.mem := rfl

/-! ### setRun -/

@[simp] theorem State.setRun_ac (v : Bool) : (s.setRun v).ac = s.ac := rfl
@[simp] theorem State.setRun_l (v : Bool) : (s.setRun v).l = s.l := rfl
@[simp] theorem State.setRun_pc (v : Bool) : (s.setRun v).pc = s.pc := rfl
@[simp] theorem State.setRun_ir (v : Bool) : (s.setRun v).ir = s.ir := rfl
@[simp] theorem State.setRun_lpc (v : Bool) : (s.setRun v).lpc = s.lpc := rfl
@[simp] theorem State.setRun_run (v : Bool) : (s.setRun v).run = v := rfl
@[simp] theorem State.setRun_ie (v : Bool) : (s.setRun v).ie = s.ie := rfl
@[simp] theorem State.setRun_irq (v : Bool) : (s.setRun v).irq = s.irq := rfl
@[simp] theorem State.setRun_sr (v : Bool) : (s.setRun v).sr = s.sr := rfl
@[simp] theorem State.setRun_de (v : Bool) : (s.setRun v).de = s.de := rfl
@[simp] theorem State.setRun_mem (v : Bool) : (s.setRun v).mem = s.mem := rfl

/-! ### setIe -/

@[simp] theorem State.setIe_ac (v : Bool) : (s.setIe v).ac = s.ac := rfl
@[simp] theorem State.setIe_l (v : Bool) : (s.setIe v).l = s.l := rfl
@[simp] theorem State.setIe_pc (v : Bool) : (s.setIe v).pc = s.pc := rfl
@[simp] theorem State.setIe_ir (v : Bool) : (s.setIe v).ir = s.ir := rfl
@[simp] theorem State.setIe_lpc (v : Bool) : (s.setIe v).lpc = s.lpc := rfl
@[simp] theorem State.setIe_run (v : Bool) : (s.setIe v).run = s.run := rfl
@[simp] theorem State.setIe_ie (v : Bool) : (s.setIe v).ie = v := rfl
@[simp] theorem State.setIe_irq (v : Bool) : (s.setIe v).irq = s.irq := rfl
@[simp] theorem State.setIe_sr (v : Bool) : (s.setIe v).sr = s.sr := rfl
@[simp] theorem State.setIe_de (v : Bool) : (s.setIe v).de = s.de := rfl
@[simp] theorem State.setIe_mem (v : Bool) : (s.setIe v).mem = s.mem := rfl

/-! ### setIrq -/

@[simp] theorem State.setIrq_ac (v : Bool) : (s.setIrq v).ac = s.ac := rfl
@[simp] theorem State.setIrq_l (v : Bool) : (s.setIrq v).l = s.l := rfl
@[simp] theorem State.setIrq_pc (v : Bool) : (s.setIrq v).pc = s.pc := rfl
@[simp] theorem State.setIrq_ir (v : Bool) : (s.setIrq v).ir = s.ir := rfl
@[simp] theorem State.setIrq_lpc (v : Bool) : (s.setIrq v).lpc = s.lpc := rfl
@[simp] theorem State.setIrq_run (v : Bool) : (s.setIrq v).run = s.run := rfl
@[simp] theorem State.setIrq_ie (v : Bool) : (s.setIrq v).ie = s.ie := rfl
@[simp] theorem State.setIrq_irq (v : Bool) : (s.setIrq v).irq = v := rfl
@[simp] theorem State.setIrq_sr (v : Bool) : (s.setIrq v).sr = s.sr := rfl
@[simp] theorem State.setIrq_de (v : Bool) : (s.setIrq v).de = s.de := rfl
@[simp] theorem State.setIrq_mem (v : Bool) : (s.setIrq v).mem = s.mem := rfl

/-! ### setSr -/

@[simp] theorem State.setSr_ac (v : Word) : (s.setSr v).ac = s.ac := rfl
@[simp] theorem State.setSr_l (v : Word) : (s.setSr v).l = s.l := rfl
@[simp] theorem State.setSr_pc (v : Word) : (s.setSr v).pc = s.pc := rfl
@[simp] theorem State.setSr_ir (v : Word) : (s.setSr v).ir = s.ir := rfl
@[simp] theorem State.setSr_lpc (v : Word) : (s.setSr v).lpc = s.lpc := rfl
@[simp] theorem State.setSr_run (v : Word) : (s.setSr v).run = s.run := rfl
@[simp] theorem State.setSr_ie (v : Word) : (s.setSr v).ie = s.ie := rfl
@[simp] theorem State.setSr_irq (v : Word) : (s.setSr v).irq = s.irq := rfl
@[simp] theorem State.setSr_sr (v : Word) : (s.setSr v).sr = v := rfl
@[simp] theorem State.setSr_de (v : Word) : (s.setSr v).de = s.de := rfl
@[simp] theorem State.setSr_mem (v : Word) : (s.setSr v).mem = s.mem := rfl

/-! ### setDe -/

@[simp] theorem State.setDe_ac (v : Bool) : (s.setDe v).ac = s.ac := rfl
@[simp] theorem State.setDe_l (v : Bool) : (s.setDe v).l = s.l := rfl
@[simp] theorem State.setDe_pc (v : Bool) : (s.setDe v).pc = s.pc := rfl
@[simp] theorem State.setDe_ir (v : Bool) : (s.setDe v).ir = s.ir := rfl
@[simp] theorem State.setDe_lpc (v : Bool) : (s.setDe v).lpc = s.lpc := rfl
@[simp] theorem State.setDe_run (v : Bool) : (s.setDe v).run = s.run := rfl
@[simp] theorem State.setDe_ie (v : Bool) : (s.setDe v).ie = s.ie := rfl
@[simp] theorem State.setDe_irq (v : Bool) : (s.setDe v).irq = s.irq := rfl
@[simp] theorem State.setDe_sr (v : Bool) : (s.setDe v).sr = s.sr := rfl
@[simp] theorem State.setDe_de (v : Bool) : (s.setDe v).de = v := rfl
@[simp] theorem State.setDe_mem (v : Bool) : (s.setDe v).mem = s.mem := rfl

/-! ### setMem -/

@[simp] theorem State.setMem_ac (v : Memory) : (s.setMem v).ac = s.ac := rfl
@[simp] theorem State.setMem_l (v : Memory) : (s.setMem v).l = s.l := rfl
@[simp] theorem State.setMem_pc (v : Memory) : (s.setMem v).pc = s.pc := rfl
@[simp] theorem State.setMem_ir (v : Memory) : (s.setMem v).ir = s.ir := rfl
@[simp] theorem State.setMem_lpc (v : Memory) : (s.setMem v).lpc = s.lpc := rfl
@[simp] theorem State.setMem_run (v : Memory) : (s.setMem v).run = s.run := rfl
@[simp] theorem State.setMem_ie (v : Memory) : (s.setMem v).ie = s.ie := rfl
@[simp] theorem State.setMem_irq (v : Memory) : (s.setMem v).irq = s.irq := rfl
@[simp] theorem State.setMem_sr (v : Memory) : (s.setMem v).sr = s.sr := rfl
@[simp] theorem State.setMem_de (v : Memory) : (s.setMem v).de = s.de := rfl
@[simp] theorem State.setMem_mem (v : Memory) : (s.setMem v).mem = v := rfl

end Sys2Proof.Machine
end

