-- ==== Sys2Proof/Laws/Ops.lean ====
section
/-! SUPPORT. What each shared operation can do, said once. -/

namespace Sys2Proof.Machine

variable (s : State)

@[simp] theorem applyIf_true (f : State → State) : applyIf true f s = f s := rfl
@[simp] theorem applyIf_false (f : State → State) : applyIf false f s = s := rfl

theorem applyIf_eq (b : Bool) (f : State → State) : applyIf b f s = if b then f s else s := rfl

/-- A field that the action keeps is kept by the conditional action. -/
theorem applyIf_field {α : Type} (g : State → α) (b : Bool) (f : State → State) (h : g (f s) = g s) :
    g (applyIf b f s) = g s := by
  cases b <;> simp [h]

/-! ### `MemWrite` -/

@[simp] theorem State.writeMem_ac (a v : Word) : (s.writeMem a v).ac = s.ac := rfl
@[simp] theorem State.writeMem_l (a v : Word) : (s.writeMem a v).l = s.l := rfl
@[simp] theorem State.writeMem_pc (a v : Word) : (s.writeMem a v).pc = s.pc := rfl
@[simp] theorem State.writeMem_ir (a v : Word) : (s.writeMem a v).ir = s.ir := rfl
@[simp] theorem State.writeMem_lpc (a v : Word) : (s.writeMem a v).lpc = s.lpc := rfl
@[simp] theorem State.writeMem_run (a v : Word) : (s.writeMem a v).run = s.run := rfl
@[simp] theorem State.writeMem_ie (a v : Word) : (s.writeMem a v).ie = s.ie := rfl
@[simp] theorem State.writeMem_irq (a v : Word) : (s.writeMem a v).irq = s.irq := rfl
@[simp] theorem State.writeMem_sr (a v : Word) : (s.writeMem a v).sr = s.sr := rfl
@[simp] theorem State.writeMem_de (a v : Word) : (s.writeMem a v).de = s.de := rfl
@[simp] theorem State.writeMem_mem (a v : Word) : (s.writeMem a v).mem = s.mem.write a v := rfl

/-! ### `LAC <- c` -/

@[simp] theorem State.setLac_ac (c : Combined) : (s.setLac c).ac = c.extractLsb' 0 12 := rfl
@[simp] theorem State.setLac_l (c : Combined) : (s.setLac c).l = c.extractLsb' 12 1 := rfl
@[simp] theorem State.setLac_pc (c : Combined) : (s.setLac c).pc = s.pc := rfl
@[simp] theorem State.setLac_ir (c : Combined) : (s.setLac c).ir = s.ir := rfl
@[simp] theorem State.setLac_lpc (c : Combined) : (s.setLac c).lpc = s.lpc := rfl
@[simp] theorem State.setLac_run (c : Combined) : (s.setLac c).run = s.run := rfl
@[simp] theorem State.setLac_ie (c : Combined) : (s.setLac c).ie = s.ie := rfl
@[simp] theorem State.setLac_irq (c : Combined) : (s.setLac c).irq = s.irq := rfl
@[simp] theorem State.setLac_sr (c : Combined) : (s.setLac c).sr = s.sr := rfl
@[simp] theorem State.setLac_de (c : Combined) : (s.setLac c).de = s.de := rfl
@[simp] theorem State.setLac_mem (c : Combined) : (s.setLac c).mem = s.mem := rfl

/-! ### skip -/

@[simp] theorem State.skip_ac : (s.skip).ac = s.ac := rfl
@[simp] theorem State.skip_l : (s.skip).l = s.l := rfl
@[simp] theorem State.skip_pc : (s.skip).pc = s.pc + 1 := rfl
@[simp] theorem State.skip_ir : (s.skip).ir = s.ir := rfl
@[simp] theorem State.skip_lpc : (s.skip).lpc = s.lpc := rfl
@[simp] theorem State.skip_run : (s.skip).run = s.run := rfl
@[simp] theorem State.skip_ie : (s.skip).ie = s.ie := rfl
@[simp] theorem State.skip_irq : (s.skip).irq = s.irq := rfl
@[simp] theorem State.skip_sr : (s.skip).sr = s.sr := rfl
@[simp] theorem State.skip_de : (s.skip).de = s.de := rfl
@[simp] theorem State.skip_mem : (s.skip).mem = s.mem := rfl

/-! ### fetch -/

@[simp] theorem State.fetch_ac : (s.fetch).ac = s.ac := rfl
@[simp] theorem State.fetch_l : (s.fetch).l = s.l := rfl
@[simp] theorem State.fetch_pc : (s.fetch).pc = s.pc + 1 := rfl
@[simp] theorem State.fetch_ir : (s.fetch).ir = s.mem.read s.pc := rfl
@[simp] theorem State.fetch_lpc : (s.fetch).lpc = s.pc := rfl
@[simp] theorem State.fetch_run : (s.fetch).run = s.run := rfl
@[simp] theorem State.fetch_ie : (s.fetch).ie = s.ie := rfl
@[simp] theorem State.fetch_irq : (s.fetch).irq = s.irq := rfl
@[simp] theorem State.fetch_sr : (s.fetch).sr = s.sr := rfl
@[simp] theorem State.fetch_de : (s.fetch).de = false := rfl
@[simp] theorem State.fetch_mem : (s.fetch).mem = s.mem := rfl

/-! ### interrupt entry -/

@[simp] theorem State.interruptEntry_ac : (s.interruptEntry).ac = s.ac := rfl
@[simp] theorem State.interruptEntry_l : (s.interruptEntry).l = s.l := rfl
@[simp] theorem State.interruptEntry_pc : (s.interruptEntry).pc = 1 := rfl
@[simp] theorem State.interruptEntry_ir : (s.interruptEntry).ir = s.ir := rfl
@[simp] theorem State.interruptEntry_lpc : (s.interruptEntry).lpc = s.lpc := rfl
@[simp] theorem State.interruptEntry_run : (s.interruptEntry).run = s.run := rfl
@[simp] theorem State.interruptEntry_ie : (s.interruptEntry).ie = false := rfl
@[simp] theorem State.interruptEntry_irq : (s.interruptEntry).irq = s.irq := rfl
@[simp] theorem State.interruptEntry_sr : (s.interruptEntry).sr = s.sr := rfl
@[simp] theorem State.interruptEntry_de : (s.interruptEntry).de = s.de := rfl
@[simp] theorem State.interruptEntry_mem : (s.interruptEntry).mem = s.mem.write 0 s.pc := rfl

/-! ### clear accumulator -/

@[simp] theorem State.clearAc_ac : (s.clearAc).ac = 0 := rfl
@[simp] theorem State.clearAc_l : (s.clearAc).l = s.l := rfl
@[simp] theorem State.clearAc_pc : (s.clearAc).pc = s.pc := rfl
@[simp] theorem State.clearAc_ir : (s.clearAc).ir = s.ir := rfl
@[simp] theorem State.clearAc_lpc : (s.clearAc).lpc = s.lpc := rfl
@[simp] theorem State.clearAc_run : (s.clearAc).run = s.run := rfl
@[simp] theorem State.clearAc_ie : (s.clearAc).ie = s.ie := rfl
@[simp] theorem State.clearAc_irq : (s.clearAc).irq = s.irq := rfl
@[simp] theorem State.clearAc_sr : (s.clearAc).sr = s.sr := rfl
@[simp] theorem State.clearAc_de : (s.clearAc).de = s.de := rfl
@[simp] theorem State.clearAc_mem : (s.clearAc).mem = s.mem := rfl

/-! ### clear link -/

@[simp] theorem State.clearLink_ac : (s.clearLink).ac = s.ac := rfl
@[simp] theorem State.clearLink_l : (s.clearLink).l = 0 := rfl
@[simp] theorem State.clearLink_pc : (s.clearLink).pc = s.pc := rfl
@[simp] theorem State.clearLink_ir : (s.clearLink).ir = s.ir := rfl
@[simp] theorem State.clearLink_lpc : (s.clearLink).lpc = s.lpc := rfl
@[simp] theorem State.clearLink_run : (s.clearLink).run = s.run := rfl
@[simp] theorem State.clearLink_ie : (s.clearLink).ie = s.ie := rfl
@[simp] theorem State.clearLink_irq : (s.clearLink).irq = s.irq := rfl
@[simp] theorem State.clearLink_sr : (s.clearLink).sr = s.sr := rfl
@[simp] theorem State.clearLink_de : (s.clearLink).de = s.de := rfl
@[simp] theorem State.clearLink_mem : (s.clearLink).mem = s.mem := rfl

/-! ### complement accumulator -/

@[simp] theorem State.complementAc_ac : (s.complementAc).ac = ~~~s.ac := rfl
@[simp] theorem State.complementAc_l : (s.complementAc).l = s.l := rfl
@[simp] theorem State.complementAc_pc : (s.complementAc).pc = s.pc := rfl
@[simp] theorem State.complementAc_ir : (s.complementAc).ir = s.ir := rfl
@[simp] theorem State.complementAc_lpc : (s.complementAc).lpc = s.lpc := rfl
@[simp] theorem State.complementAc_run : (s.complementAc).run = s.run := rfl
@[simp] theorem State.complementAc_ie : (s.complementAc).ie = s.ie := rfl
@[simp] theorem State.complementAc_irq : (s.complementAc).irq = s.irq := rfl
@[simp] theorem State.complementAc_sr : (s.complementAc).sr = s.sr := rfl
@[simp] theorem State.complementAc_de : (s.complementAc).de = s.de := rfl
@[simp] theorem State.complementAc_mem : (s.complementAc).mem = s.mem := rfl

/-! ### complement link -/

@[simp] theorem State.complementLink_ac : (s.complementLink).ac = s.ac := rfl
@[simp] theorem State.complementLink_l : (s.complementLink).l = 1 - s.l := rfl
@[simp] theorem State.complementLink_pc : (s.complementLink).pc = s.pc := rfl
@[simp] theorem State.complementLink_ir : (s.complementLink).ir = s.ir := rfl
@[simp] theorem State.complementLink_lpc : (s.complementLink).lpc = s.lpc := rfl
@[simp] theorem State.complementLink_run : (s.complementLink).run = s.run := rfl
@[simp] theorem State.complementLink_ie : (s.complementLink).ie = s.ie := rfl
@[simp] theorem State.complementLink_irq : (s.complementLink).irq = s.irq := rfl
@[simp] theorem State.complementLink_sr : (s.complementLink).sr = s.sr := rfl
@[simp] theorem State.complementLink_de : (s.complementLink).de = s.de := rfl
@[simp] theorem State.complementLink_mem : (s.complementLink).mem = s.mem := rfl

/-! ### OR switches -/

@[simp] theorem State.orSwitches_ac : (s.orSwitches).ac = s.ac ||| s.sr := rfl
@[simp] theorem State.orSwitches_l : (s.orSwitches).l = s.l := rfl
@[simp] theorem State.orSwitches_pc : (s.orSwitches).pc = s.pc := rfl
@[simp] theorem State.orSwitches_ir : (s.orSwitches).ir = s.ir := rfl
@[simp] theorem State.orSwitches_lpc : (s.orSwitches).lpc = s.lpc := rfl
@[simp] theorem State.orSwitches_run : (s.orSwitches).run = s.run := rfl
@[simp] theorem State.orSwitches_ie : (s.orSwitches).ie = s.ie := rfl
@[simp] theorem State.orSwitches_irq : (s.orSwitches).irq = s.irq := rfl
@[simp] theorem State.orSwitches_sr : (s.orSwitches).sr = s.sr := rfl
@[simp] theorem State.orSwitches_de : (s.orSwitches).de = s.de := rfl
@[simp] theorem State.orSwitches_mem : (s.orSwitches).mem = s.mem := rfl

/-! ### halt -/

@[simp] theorem State.halt_ac : (s.halt).ac = s.ac := rfl
@[simp] theorem State.halt_l : (s.halt).l = s.l := rfl
@[simp] theorem State.halt_pc : (s.halt).pc = s.pc := rfl
@[simp] theorem State.halt_ir : (s.halt).ir = s.ir := rfl
@[simp] theorem State.halt_lpc : (s.halt).lpc = s.lpc := rfl
@[simp] theorem State.halt_run : (s.halt).run = false := rfl
@[simp] theorem State.halt_ie : (s.halt).ie = s.ie := rfl
@[simp] theorem State.halt_irq : (s.halt).irq = s.irq := rfl
@[simp] theorem State.halt_sr : (s.halt).sr = s.sr := rfl
@[simp] theorem State.halt_de : (s.halt).de = s.de := rfl
@[simp] theorem State.halt_mem : (s.halt).mem = s.mem := rfl

/-! ### The combined value -/

theorem State.lac_toNat : s.lac.toNat = s.l.toNat * 4096 + s.ac.toNat := by
  have h : s.lac = BitVec.ofNat 13 (s.l.toNat * 4096 + s.ac.toNat) := by
    apply BitVec.eq_of_toNat_eq
    have h1 := s.l.isLt
    have h2 := s.ac.isLt
    simp only [State.lac, BitVec.toNat_append, BitVec.toNat_ofNat]
    rw [← Nat.shiftLeft_add_eq_or_of_lt s.ac.isLt, Nat.shiftLeft_eq]
    omega
  have h1 := s.l.isLt
  have h2 := s.ac.isLt
  rw [h, BitVec.toNat_ofNat]
  omega

/-- Writing the combined value and computing it again are inverse. -/
@[simp] theorem State.setLac_lac (c : Combined) : (s.setLac c).lac = c := by
  apply BitVec.eq_of_toNat_eq
  have := c.isLt
  rw [State.lac_toNat]
  simp only [State.setLac_l, State.setLac_ac, BitVec.extractLsb'_toNat, Nat.shiftRight_eq_div_pow,
    Nat.pow_zero, Nat.div_one]
  omega

/-- Two writes of the combined value: the second one counts. -/
@[simp] theorem State.setLac_setLac (c d : Combined) : (s.setLac c).setLac d = s.setLac d := rfl

@[simp] theorem State.setLac_self : s.setLac s.lac = s := by
  obtain ⟨ac, l, pc, ir, lpc, run, ie, irq, sr, de, mem⟩ := s
  simp only [State.setLac, State.setL, State.setAc, State.lac, State.mk.injEq, and_true]
  refine ⟨?_, ?_⟩ <;> apply BitVec.eq_of_toNat_eq
  · have h2 := ac.isLt
    rw [BitVec.extractLsb'_toNat, BitVec.toNat_append, ← Nat.shiftLeft_add_eq_or_of_lt ac.isLt,
      Nat.shiftLeft_eq]
    simp only [Nat.shiftRight_zero]
    omega
  · have h2 := ac.isLt
    have h1 := l.isLt
    rw [BitVec.extractLsb'_toNat, BitVec.toNat_append, ← Nat.shiftLeft_add_eq_or_of_lt ac.isLt,
      Nat.shiftLeft_eq, Nat.shiftRight_eq_div_pow]
    omega

theorem rol13_toNat (c : Combined) : (rol13 c).toNat = c.toNat * 2 % 8192 + c.toNat / 4096 := by
  have := c.isLt
  simp only [rol13, BitVec.toNat_add, BitVec.toNat_mul, BitVec.toNat_setWidth,
    BitVec.extractLsb'_toNat, Nat.shiftRight_eq_div_pow]
  rw [show (2 : BitVec 13).toNat = 2 from rfl]
  have h1 : c.toNat / 2 ^ 12 ≤ 1 := by omega
  have h2 : c.toNat * 2 % 2 ^ 13 = 2 * (c.toNat % 4096) := by omega
  rw [h2, Nat.mod_eq_of_lt (by omega : c.toNat / 2 ^ 12 < 2 ^ 1)]
  omega

theorem ror13_toNat (c : Combined) : (ror13 c).toNat = c.toNat / 2 + c.toNat % 2 * 4096 := by
  have := c.isLt
  simp only [ror13, BitVec.toNat_add, BitVec.toNat_mul, BitVec.toNat_udiv, BitVec.toNat_setWidth,
    BitVec.extractLsb'_toNat, Nat.shiftRight_zero]
  rw [show (2 : BitVec 13).toNat = 2 from rfl, show (4096 : BitVec 13).toNat = 4096 from rfl]
  omega

/-! ### The interrupt check -/

/-- The check either enters the interrupt or changes nothing. -/
theorem State.interruptCheck_cases :
    (s.de = false ∧ s.ie = true ∧ s.irq = true ∧ s.interruptCheck = s.interruptEntry) ∨
      (¬(s.de = false ∧ s.ie = true ∧ s.irq = true) ∧ s.interruptCheck = s) := by
  unfold State.interruptCheck State.takesInterrupt
  cases s.de <;> cases s.ie <;> cases s.irq <;> simp

/-! ### The effective-address resolver -/

/-- `EA()` changes at most one word of memory, and no register. -/
theorem resolve_eq (m : MemRef) : resolve m s = s.setMem (resolve m s).mem := by
  unfold resolve
  cases autoIncrements m s <;> rfl

/-- What memory holds after `EA()`: the pointer cell incremented, every other word as before. -/
theorem resolve_read (m : MemRef) (a : Word) :
    (resolve m s).mem.read a =
      if autoIncrements m s = true ∧ a = directAddress m s.lpc then s.mem.read a + 1
      else s.mem.read a := by
  unfold resolve
  cases autoIncrements m s with
  | false => simp
  | true =>
    by_cases h : a = directAddress m s.lpc
    · simp [h]
    · simp [h, Memory.read_write_other s.mem _ h]

theorem resolve_mem_wf (m : MemRef) (h : s.mem.wf = true) : (resolve m s).mem.wf = true := by
  unfold resolve
  cases autoIncrements m s with
  | false => exact h
  | true => exact Memory.wf_write _ _ _ h

@[simp] theorem resolve_ac (m : MemRef) : (resolve m s).ac = s.ac := by rw [resolve_eq]; rfl
@[simp] theorem resolve_l (m : MemRef) : (resolve m s).l = s.l := by rw [resolve_eq]; rfl
@[simp] theorem resolve_pc (m : MemRef) : (resolve m s).pc = s.pc := by rw [resolve_eq]; rfl
@[simp] theorem resolve_ir (m : MemRef) : (resolve m s).ir = s.ir := by rw [resolve_eq]; rfl
@[simp] theorem resolve_lpc (m : MemRef) : (resolve m s).lpc = s.lpc := by rw [resolve_eq]; rfl
@[simp] theorem resolve_run (m : MemRef) : (resolve m s).run = s.run := by rw [resolve_eq]; rfl
@[simp] theorem resolve_ie (m : MemRef) : (resolve m s).ie = s.ie := by rw [resolve_eq]; rfl
@[simp] theorem resolve_irq (m : MemRef) : (resolve m s).irq = s.irq := by rw [resolve_eq]; rfl
@[simp] theorem resolve_sr (m : MemRef) : (resolve m s).sr = s.sr := by rw [resolve_eq]; rfl
@[simp] theorem resolve_de (m : MemRef) : (resolve m s).de = s.de := by rw [resolve_eq]; rfl

/-! ### The operate sequences -/

/-- Steps 1 to 5 of group 1 change `AC` and `L` only. -/
theorem group1BeforeRotate_eq (f : Group1Flags) :
    group1BeforeRotate f s =
      (s.setL (group1BeforeRotate f s).l).setAc (group1BeforeRotate f s).ac := by
  obtain ⟨a, b, c, d, _, _, _, e⟩ := f
  cases a <;> cases b <;> cases c <;> cases d <;> cases e <;> rfl

/-- A group 1 word changes `AC` and `L` only. -/
theorem group1_eq (f : Group1Flags) :
    group1 f s = (s.setL (group1 f s).l).setAc (group1 f s).ac := by
  have h := group1BeforeRotate_eq s f
  unfold group1
  generalize group1BeforeRotate f s = t at *
  obtain ⟨_, _, _, _, right, left, two, _⟩ := f
  rw [h]
  cases right <;> cases left <;> cases two <;> rfl

/-- A group 2 word changes `PC` by its skip, `AC` by its clear and its OR, and `RUN` by its halt. -/
theorem group2_eq (f : Group2Flags) :
    group2 f s =
      { s with
        pc := if skipTest f s.ac s.l then s.pc + 1 else s.pc
        ac := (if f.cla then 0 else s.ac) ||| (if f.osr then s.sr else 0)
        run := s.run && !f.hlt } := by
  unfold group2
  generalize skipTest f s.ac s.l = b
  obtain ⟨cla, _, _, _, _, osr, hlt⟩ := f
  cases b <;> cases cla <;> cases osr <;> cases hlt <;> cases hr : s.run <;>
    simp [applyIf, State.skip, State.clearAc, State.orSwitches, State.halt, State.setAc, State.setPc,
      State.setRun] <;> first | rfl | (rw [← hr])

/-- A group 3 word changes `AC` only, by its clear. -/
theorem group3_eq (cla : Bool) : group3 cla s = s.setAc (if cla then 0 else s.ac) := by
  cases cla <;> rfl

end Sys2Proof.Machine
end

