-- ==== Sys2Proof/Laws/PerInstr.lean ====
section
/-! SUPPORT. What is proved instruction by instruction: the word of a well-formed instruction meets the
condition of its decode class (30_encoding.md R86). -/

namespace Sys2Proof.Laws

/-- The encoder puts an instruction into its own decode class. -/
def EncodeClass.Statement (i : Instr) : Prop :=
  i.wellFormed = true → Machine.classCondition i.decodeClass (encode i) = true

theorem encodeMemRef_class (op : BitVec 3) (m : MemRef) : (encodeMemRef op m).toNat / 512 = op.toNat := by
  obtain ⟨i, p, o⟩ := m
  revert op o
  cases i <;> cases p <;> decide

theorem encodeGroup1_class (f : Group1Flags) : (encodeGroup1 f).toNat / 256 = 14 := by
  obtain ⟨a, b, c, d, e, g, h, j⟩ := f
  revert a b c d e g h j
  decide

theorem encodeGroup2_class (f : Group2Flags) :
    (encodeGroup2 f).toNat / 256 = 15 ∧ (encodeGroup2 f).toNat % 2 = 0 := by
  obtain ⟨a, b, c, d, e, g, h⟩ := f
  revert a b c d e g h
  decide

theorem encodeGroup3_class (c : Bool) (e : BitVec 6) :
    (encodeGroup3 c e).toNat / 256 = 15 ∧ (encodeGroup3 c e).toNat % 2 = 1 := by
  revert c e
  decide

theorem EncodeClass.and (m : MemRef) : EncodeClass.Statement (.and m) := fun _ => by
  simp [Machine.classCondition, Instr.decodeClass, encode, encodeMemRef_class]

theorem EncodeClass.tad (m : MemRef) : EncodeClass.Statement (.tad m) := fun _ => by
  simp [Machine.classCondition, Instr.decodeClass, encode, encodeMemRef_class]

theorem EncodeClass.isz (m : MemRef) : EncodeClass.Statement (.isz m) := fun _ => by
  simp [Machine.classCondition, Instr.decodeClass, encode, encodeMemRef_class]

theorem EncodeClass.dca (m : MemRef) : EncodeClass.Statement (.dca m) := fun _ => by
  simp [Machine.classCondition, Instr.decodeClass, encode, encodeMemRef_class]

theorem EncodeClass.jms (m : MemRef) : EncodeClass.Statement (.jms m) := fun _ => by
  simp [Machine.classCondition, Instr.decodeClass, encode, encodeMemRef_class]

theorem EncodeClass.jmp (m : MemRef) : EncodeClass.Statement (.jmp m) := fun _ => by
  simp [Machine.classCondition, Instr.decodeClass, encode, encodeMemRef_class]

theorem EncodeClass.ion : EncodeClass.Statement .ion := fun _ => rfl

theorem EncodeClass.iof : EncodeClass.Statement .iof := fun _ => rfl

theorem EncodeClass.iot (code : BitVec 9) : EncodeClass.Statement (.iot code) := by
  unfold EncodeClass.Statement
  revert code
  decide

theorem EncodeClass.opr1 (f : Group1Flags) : EncodeClass.Statement (.opr1 f) := fun _ => by
  simp [Machine.classCondition, Instr.decodeClass, encode, encodeFlags, Instr.group1Flags?,
    encodeGroup1_class]

theorem EncodeClass.opr2 (f : Group2Flags) : EncodeClass.Statement (.opr2 f) := fun _ => by
  simp [Machine.classCondition, Instr.decodeClass, encode, encodeFlags, Instr.group1Flags?,
    Instr.group2Flags?, encodeGroup2_class]

theorem EncodeClass.opr3 (c : Bool) (e : BitVec 6) : EncodeClass.Statement (.opr3 c e) := fun _ => by
  simp [Machine.classCondition, Instr.decodeClass, encode, encodeGroup3_class]

theorem EncodeClass.cla : EncodeClass.Statement .cla := fun _ => rfl

theorem EncodeClass.cll : EncodeClass.Statement .cll := fun _ => rfl

theorem EncodeClass.cma : EncodeClass.Statement .cma := fun _ => rfl

theorem EncodeClass.cml : EncodeClass.Statement .cml := fun _ => rfl

theorem EncodeClass.iac : EncodeClass.Statement .iac := fun _ => rfl

theorem EncodeClass.rar : EncodeClass.Statement .rar := fun _ => rfl

theorem EncodeClass.ral : EncodeClass.Statement .ral := fun _ => rfl

theorem EncodeClass.rtr : EncodeClass.Statement .rtr := fun _ => rfl

theorem EncodeClass.rtl : EncodeClass.Statement .rtl := fun _ => rfl

theorem EncodeClass.twiceFlagAlone : EncodeClass.Statement .twiceFlagAlone := fun _ => rfl

theorem EncodeClass.bothRotateDirections (a l m k w n : Bool) : EncodeClass.Statement (.bothRotateDirections a l m k w n) := fun _ => by
  simp [Machine.classCondition, Instr.decodeClass, encode, encodeFlags, Instr.group1Flags?,
    encodeGroup1_class]

theorem EncodeClass.sma : EncodeClass.Statement .sma := fun _ => rfl

theorem EncodeClass.sza : EncodeClass.Statement .sza := fun _ => rfl

theorem EncodeClass.snl : EncodeClass.Statement .snl := fun _ => rfl

theorem EncodeClass.spa : EncodeClass.Statement .spa := fun _ => rfl

theorem EncodeClass.sna : EncodeClass.Statement .sna := fun _ => rfl

theorem EncodeClass.szl : EncodeClass.Statement .szl := fun _ => rfl

theorem EncodeClass.skp : EncodeClass.Statement .skp := fun _ => rfl

theorem EncodeClass.claGroup2 : EncodeClass.Statement .claGroup2 := fun _ => rfl

theorem EncodeClass.osr : EncodeClass.Statement .osr := fun _ => rfl

theorem EncodeClass.hlt : EncodeClass.Statement .hlt := fun _ => rfl

theorem EncodeClass.claGroup3 : EncodeClass.Statement .claGroup3 := fun _ => rfl

theorem EncodeClass.nop : EncodeClass.Statement .nop := fun _ => rfl

theorem EncodeClass.claCll : EncodeClass.Statement .claCll := fun _ => rfl

theorem EncodeClass.cia : EncodeClass.Statement .cia := fun _ => rfl

theorem EncodeClass.sta : EncodeClass.Statement .sta := fun _ => rfl

theorem EncodeClass.stl : EncodeClass.Statement .stl := fun _ => rfl

theorem EncodeClass.glk : EncodeClass.Statement .glk := fun _ => rfl

theorem EncodeClass.claIac : EncodeClass.Statement .claIac := fun _ => rfl

theorem EncodeClass.cllRal : EncodeClass.Statement .cllRal := fun _ => rfl

theorem EncodeClass.cllRar : EncodeClass.Statement .cllRar := fun _ => rfl

theorem EncodeClass.iacRal : EncodeClass.Statement .iacRal := fun _ => rfl

theorem EncodeClass.group2NoFlag : EncodeClass.Statement .group2NoFlag := fun _ => rfl

theorem EncodeClass.las : EncodeClass.Statement .las := fun _ => rfl

theorem EncodeClass.szaCla : EncodeClass.Statement .szaCla := fun _ => rfl

theorem EncodeClass.snaCla : EncodeClass.Statement .snaCla := fun _ => rfl

theorem EncodeClass.smaCla : EncodeClass.Statement .smaCla := fun _ => rfl

theorem EncodeClass.spaCla : EncodeClass.Statement .spaCla := fun _ => rfl

theorem EncodeClass.claOsrHlt : EncodeClass.Statement .claOsrHlt := fun _ => rfl

theorem EncodeClass.skpHlt : EncodeClass.Statement .skpHlt := fun _ => rfl

end Sys2Proof.Laws
end

