-- ==== Sys2Proof/Tests/Slice0.lean ====
section
/-! SUPPORT. The model's own tests. Expected results come from the spec: words from 30_encoding.md R86 to R103,
effects from 95_test_vectors.md (the row's id stands in the comment), hypotheses from the statements. -/

namespace Sys2Proof.Tests

open Sys2Proof Sys2Proof.Machine

/-! ## Helpers -/

/-- The reset state with `PC` at `pc`, the word `w` there, and the listed cells written after it. -/
def at_ (pc w : Word) (cells : List (Word × Word) := []) (ac : Word := 0) (l : BitVec 1 := 0) : State :=
  { State.reset with
    pc := pc, ac := ac, l := l
    mem := cells.foldl (fun m c => Memory.write m c.1 c.2) (Memory.write [] pc w) }

/-- The state after one step. -/
def nextOf (s : State) : State :=
  match step s with
  | .next t => t
  | .fault _ => s
  | .refused _ => s

/-- `AC`, `L`, `PC` and one word of memory after one step. -/
def after (s : State) (a : Word := 0) : Word × BitVec 1 × Word × Word :=
  ((nextOf s).ac, (nextOf s).l, (nextOf s).pc, (nextOf s).mem.read a)

/-- `s` with `IE` and `IRQ` set. -/
def interrupting (s : State) : State := (s.setIe true).setIrq true

/-! ## Decoding, every constructor (30_encoding.md R82, R86, R88, R90 to R92, R103, the opcode table) -/

theorem test_decode_memory_reference :
    decode 0b000010000101#12 = .and ⟨false, true, 5⟩ ∧ decode 0b001100001000#12 = .tad ⟨true, false, 8⟩ ∧
    decode 0b010111111111#12 = .isz ⟨true, true, 127⟩ ∧ decode 0b011000000000#12 = .dca ⟨false, false, 0⟩ ∧
    decode 0b100010101000#12 = .jms ⟨false, true, 40⟩ ∧ decode 0b101110001010#12 = .jmp ⟨true, true, 10⟩ := by
  decide

theorem test_decode_iot :
    decode 0b110000000001#12 = .ion ∧ decode 0b110000000010#12 = .iof ∧
    decode 0b110000000000#12 = .iot 0 ∧ decode 0b110000000011#12 = .iot 3 ∧
    decode 0b110111111111#12 = .iot 0o777 := by decide

theorem test_decode_group1 :
    decode 0b111010000000#12 = .cla ∧ decode 0b111001000000#12 = .cll ∧ decode 0b111000100000#12 = .cma ∧
    decode 0b111000010000#12 = .cml ∧ decode 0b111000000001#12 = .iac ∧ decode 0b111000001000#12 = .rar ∧
    decode 0b111000000100#12 = .ral ∧ decode 0b111000001010#12 = .rtr ∧ decode 0b111000000110#12 = .rtl ∧
    decode 0b111000000010#12 = .twiceFlagAlone := by decide

theorem test_decode_both_directions :
    decode 0b111000001100#12 = .bothRotateDirections false false false false false false ∧
    decode 0b111010001101#12 = .bothRotateDirections true false false false false true ∧
    decode 0b111001111110#12 = .bothRotateDirections false true true true true false := by decide

theorem test_decode_group1_combinations :
    decode 0o7000#12 = .nop ∧ decode 0o7300#12 = .claCll ∧ decode 0o7041#12 = .cia ∧ decode 0o7240#12 = .sta ∧
    decode 0o7120#12 = .stl ∧ decode 0o7204#12 = .glk ∧ decode 0o7201#12 = .claIac ∧
    decode 0o7104#12 = .cllRal ∧ decode 0o7110#12 = .cllRar ∧ decode 0o7005#12 = .iacRal := by decide

theorem test_decode_opr1 :
    decode 0b111000110000#12 = .opr1 { cma := true, cml := true } ∧
    decode 0b111000000011#12 = .opr1 { two := true, iac := true } ∧
    decode 0b111011110111#12 =
      .opr1 { cla := true, cll := true, cma := true, cml := true, ral := true, two := true, iac := true } := by
  decide

theorem test_decode_group2 :
    decode 0b111101000000#12 = .sma ∧ decode 0b111100100000#12 = .sza ∧ decode 0b111100010000#12 = .snl ∧
    decode 0b111101001000#12 = .spa ∧ decode 0b111100101000#12 = .sna ∧ decode 0b111100011000#12 = .szl ∧
    decode 0b111100001000#12 = .skp ∧ decode 0b111110000000#12 = .claGroup2 ∧
    decode 0b111100000100#12 = .osr ∧ decode 0b111100000010#12 = .hlt := by decide

theorem test_decode_group2_combinations :
    decode 0o7400#12 = .group2NoFlag ∧ decode 0o7604#12 = .las ∧ decode 0o7640#12 = .szaCla ∧
    decode 0o7650#12 = .snaCla ∧ decode 0o7700#12 = .smaCla ∧ decode 0o7710#12 = .spaCla ∧
    decode 0o7606#12 = .claOsrHlt ∧ decode 0o7412#12 = .skpHlt := by decide

theorem test_decode_opr2 :
    decode 0b111101101000#12 = .opr2 { sma := true, sza := true, inv := true } ∧
    decode 0b111111111110#12 = .opr2 ⟨true, true, true, true, true, true, true⟩ := by decide

theorem test_decode_group3 :
    decode 0b111110000001#12 = .claGroup3 ∧ decode 0b111100000001#12 = .opr3 false 0 ∧
    decode 0b111100000011#12 = .opr3 false 1 ∧ decode 0b111111111111#12 = .opr3 true 63 := by decide

/-- The number of a word is the word (one word per instruction, R80). -/
theorem test_decode_table_word :
    decodeTableWord 12 0o7402 = some .hlt ∧ decodeTableWord 16 0o7402 = some .hlt ∧
    decodeTableWord 16 4096 = none := by decide

/-! ## Well-formedness: an ill-formed term for each check -/

theorem test_ill_formed_refused :
    Instr.wellFormed (.iot 1) = false ∧ Instr.wellFormed (.iot 2) = false ∧
    Instr.wellFormed (.opr1 { cla := true }) = false ∧
    Instr.wellFormed (.opr1 { cla := true, rar := true, ral := true }) = false ∧
    Instr.wellFormed (.opr2 { inv := true, hlt := true }) = false ∧
    Instr.wellFormed (.opr3 true 0) = false := by decide

theorem test_well_formed_accepted :
    Instr.wellFormed (.iot 0) = true ∧ Instr.wellFormed (.iot 3) = true ∧
    Instr.wellFormed (.opr1 { cma := true, cml := true }) = true ∧
    Instr.wellFormed (.opr2 { cla := true, inv := true }) = true ∧
    Instr.wellFormed (.opr3 false 0) = true ∧ Instr.wellFormed (.opr3 true 1) = true := by decide

/-! ## One step of each instruction (95_test_vectors.md) -/

/-- T-M1 -/
theorem test_and_current_page :
    after (at_ 0o200 0o205 [(0o205, 0o770)] 0o7070) 0o205 = (0o70, 0, 0o201, 0o770) := by decide

/-- T-M2 -/
theorem test_and_page_zero :
    after (at_ 0o200 5 [(5, 0o1234)] 0o7777) 5 = (0o1234, 0, 0o201, 0o1234) := by decide

/-- T-M5 -/
theorem test_tad_carry_complements_set_link :
    after (at_ 0o200 0o1205 [(0o205, 1)] 0o7777 1) 0o205 = (0, 0, 0o201, 1) := by decide

/-- T-M23 -/
theorem test_isz_skip_wraps :
    after (at_ 0o7777 0o2005 [(5, 0o7777)]) 5 = (0, 0, 1, 0) := by decide

/-- T-M24 -/
theorem test_isz_auto_index_self :
    after (at_ 0o200 0o2410 [(0o10, 0o10)]) 0o10 = (0, 0, 0o201, 0o12) := by decide

/-- T-M25 -/
theorem test_dca_direct :
    after (at_ 0o200 0o3205 [(0o205, 0o7777)] 0o1234 1) 0o205 = (0, 1, 0o201, 0o1234) := by decide

/-- T-M26 -/
theorem test_dca_auto_index :
    after (at_ 0o200 0o3411 [(0o11, 0o400)] 0o55) 0o400 = (0, 0, 0o201, 0o55) := by decide

/-- T-M28 -/
theorem test_jms_to_last_word :
    after (at_ 0o200 0o4601 [(0o201, 0o7777)]) 0o7777 = (0, 0, 0, 0o201) := by decide

/-- T-M29 -/
theorem test_jms_from_last_word :
    after (at_ 0o7777 0o4020) 0o20 = (0, 0, 0o21, 0) := by decide

/-- V4 -/
theorem test_jmp_auto_index :
    after (at_ 0o20 0o5612 [(0o12, 0o310)]) 0o12 = (0, 0, 0o310, 0o311) := by decide

/-- T-M11 -/
theorem test_tad_auto_index_last :
    after (at_ 0o200 0o1417 [(0o17, 0o300), (0o300, 7)]) 0o17 = (7, 0, 0o201, 0o301) := by decide

/-- T-I2 -/
theorem test_ion_pending_request :
    after (interrupting (at_ 0o200 0o6001)) = (0, 0, 0o201, 0) := by decide

/-- T-I3 -/
theorem test_iof_pending_request :
    after (interrupting (at_ 0o200 0o6002)) = (0, 0, 0o201, 0) := by decide

/-- T-I7 -/
theorem test_iot_never_skips :
    after (at_ 0o200 0o6031 [] 0o1234) = (0o1234, 0, 0o201, 0) := by decide

/-- T-A1 -/
theorem test_nop :
    after (at_ 0o200 0o7000 [] 0o1234 1) = (0o1234, 1, 0o201, 0) := by decide

/-- T-A2 -/
theorem test_cla :
    after (at_ 0o200 0o7200 [] 0o1234 1) = (0, 1, 0o201, 0) := by decide

/-- T-A3 -/
theorem test_cll :
    after (at_ 0o200 0o7100 [] 5 1) = (5, 0, 0o201, 0) := by decide

/-- T-A4 -/
theorem test_cma :
    after (at_ 0o200 0o7040 [] 0o1234) = (0o6543, 0, 0o201, 0) := by decide

/-- T-A7 -/
theorem test_cml :
    after (at_ 0o200 0o7020 [] 0 1) = (0, 0, 0o201, 0) := by decide

/-- T-A10 -/
theorem test_iac_carry :
    after (at_ 0o200 0o7001 [] 0o7777 1) = (0, 0, 0o201, 0) := by decide

/-- T-A11 -/
theorem test_rar :
    after (at_ 0o200 0o7010 [] 2 1) = (0o4001, 0, 0o201, 0) := by decide

/-- T-A15 -/
theorem test_ral :
    after (at_ 0o200 0o7004 [] 0o4000) = (0, 1, 0o201, 0) := by decide

/-- T-A16 -/
theorem test_ral_link :
    after (at_ 0o200 0o7004 [] 0 1) = (1, 0, 0o201, 0) := by decide

/-- T-A18 -/
theorem test_rtr :
    after (at_ 0o200 0o7012 [] 3) = (0o4000, 1, 0o201, 0) := by decide

/-- T-A20 -/
theorem test_rtl :
    after (at_ 0o200 0o7006 [] 0o6000) = (1, 1, 0o201, 0) := by decide

/-- T-A22 -/
theorem test_twice_flag_alone :
    after (at_ 0o200 0o7002 [] 0o1234 1) = (0o1234, 1, 0o201, 0) := by decide

/-- T-A23 -/
theorem test_opr1_iac_twice :
    after (at_ 0o200 0o7003 [] 0o1234 1) = (0o1235, 1, 0o201, 0) := by decide

/-- T-A37 -/
theorem test_opr1_all_but_rar :
    after (at_ 0o200 0o7367 [] 0o1234) = (0, 0, 0o201, 0) := by decide

/-- T-A24 -/
theorem test_cla_cll :
    after (at_ 0o200 0o7300 [] 0o1234 1) = (0, 0, 0o201, 0) := by decide

/-- T-A25 -/
theorem test_sta :
    after (at_ 0o200 0o7240 [] 0o1234 1) = (0o7777, 1, 0o201, 0) := by decide

/-- T-A26 -/
theorem test_stl :
    after (at_ 0o200 0o7120) = (0, 1, 0o201, 0) := by decide

/-- T-A28 -/
theorem test_cia_zero :
    after (at_ 0o200 0o7041) = (0, 1, 0o201, 0) := by decide

/-- T-A27 -/
theorem test_cia :
    after (at_ 0o200 0o7041 [] 5) = (0o7773, 0, 0o201, 0) := by decide

/-- T-A30 -/
theorem test_cla_iac :
    after (at_ 0o200 0o7201 [] 0o7777 1) = (1, 1, 0o201, 0) := by decide

/-- T-A31 -/
theorem test_glk :
    after (at_ 0o200 0o7204 [] 0o1234 1) = (1, 0, 0o201, 0) := by decide

/-- T-A32 -/
theorem test_cll_ral :
    after (at_ 0o200 0o7104 [] 0o6001 1) = (0o4002, 1, 0o201, 0) := by decide

/-- T-A33 -/
theorem test_cll_rar :
    after (at_ 0o200 0o7110 [] 0o6001 1) = (0o3000, 1, 0o201, 0) := by decide

/-- T-A34 -/
theorem test_iac_ral :
    after (at_ 0o200 0o7005 [] 0o3777) = (0, 1, 0o201, 0) := by decide

/-- T-S1 -/
theorem test_group2_no_flag :
    after (at_ 0o200 0o7400 [] 0 1) = (0, 1, 0o201, 0) := by decide

/-- T-S2 -/
theorem test_sma :
    after (at_ 0o200 0o7500 [] 0o4000) = (0o4000, 0, 0o202, 0) := by decide

/-- T-S3 -/
theorem test_sma_boundary :
    after (at_ 0o200 0o7500 [] 0o3777) = (0o3777, 0, 0o201, 0) := by decide

/-- T-S7 -/
theorem test_sza :
    after (at_ 0o200 0o7440 [] 0 1) = (0, 1, 0o202, 0) := by decide

/-- T-S6 -/
theorem test_sza_one :
    after (at_ 0o200 0o7440 [] 1) = (1, 0, 0o201, 0) := by decide

/-- T-S8 -/
theorem test_snl :
    after (at_ 0o200 0o7420 [] 0 1) = (0, 1, 0o202, 0) := by decide

/-- T-S10 -/
theorem test_skp :
    after (at_ 0o200 0o7410) = (0, 0, 0o202, 0) := by decide

/-- T-S11 -/
theorem test_spa_zero :
    after (at_ 0o200 0o7510) = (0, 0, 0o202, 0) := by decide

/-- T-S13 -/
theorem test_spa_boundary :
    after (at_ 0o200 0o7510 [] 0o4000) = (0o4000, 0, 0o201, 0) := by decide

/-- T-S16 -/
theorem test_sna :
    after (at_ 0o200 0o7450 [] 0o4000) = (0o4000, 0, 0o202, 0) := by decide

/-- T-S15 -/
theorem test_sna_zero :
    after (at_ 0o200 0o7450) = (0, 0, 0o201, 0) := by decide

/-- T-S17 -/
theorem test_szl :
    after (at_ 0o200 0o7430) = (0, 0, 0o202, 0) := by decide

/-- T-S18 -/
theorem test_szl_set :
    after (at_ 0o200 0o7430 [] 0 1) = (0, 1, 0o201, 0) := by decide

/-- T-S24 -/
theorem test_opr2_spa_sna_zero :
    after (at_ 0o200 0o7550) = (0, 0, 0o202, 0) := by decide

/-- T-S27 -/
theorem test_opr2_sna_szl :
    after (at_ 0o200 0o7470 [] 0 1) = (0, 1, 0o201, 0) := by decide

/-- T-S34 -/
theorem test_cla_group2 :
    after (at_ 0o200 0o7600 [] 0o1234 1) = (0, 1, 0o201, 0) := by decide

/-- T-S35 -/
theorem test_sza_cla :
    after (at_ 0o200 0o7640) = (0, 0, 0o202, 0) := by decide

/-- T-S36 -/
theorem test_sza_cla_not_zero :
    after (at_ 0o200 0o7640 [] 5) = (0, 0, 0o201, 0) := by decide

/-- T-S37 -/
theorem test_sna_cla :
    after (at_ 0o200 0o7650 [] 5) = (0, 0, 0o202, 0) := by decide

/-- 30_encoding.md R103 -/
theorem test_sma_cla :
    after (at_ 0o200 0o7700 [] 0o4000 1) = (0, 1, 0o202, 0) := by decide

/-- 30_encoding.md R103 -/
theorem test_spa_cla :
    after (at_ 0o200 0o7710 [] 0o4000) = (0, 0, 0o201, 0) := by decide

/-- T-S38 -/
theorem test_osr :
    after ((at_ 0o200 0o7404 [] 7).setSr 0o7000) = (0o7007, 0, 0o201, 0) := by decide

/-- T-S39 -/
theorem test_las :
    after ((at_ 0o200 0o7604 [] 7 1).setSr 0o7000) = (0o7000, 1, 0o201, 0) := by decide

/-- T-G4 -/
theorem test_opr3_no_skip :
    after ((at_ 0o200 0o7411).setSr 0o777) = (0, 0, 0o201, 0) := by decide

/-- T-G7 -/
theorem test_opr3_clear_without_switches :
    after ((at_ 0o200 0o7605 [] 0o1234).setSr 0o777) = (0, 0, 0o201, 0) := by decide

/-- T-G1 -/
theorem test_cla_group3 :
    after ((at_ 0o200 0o7601 [] 0o1234 1).setSr 0o777) = (0, 1, 0o201, 0) := by decide

/-- T-I2, T-I3: `IE` and `DE` after ION and IOF. -/
theorem test_ion_iof_flags :
    (nextOf (interrupting (at_ 0o200 0o6001))).ie = true ∧ (nextOf (interrupting (at_ 0o200 0o6001))).de = true ∧
    (nextOf (interrupting (at_ 0o200 0o6002))).ie = false ∧
    (nextOf (interrupting (at_ 0o200 0o6002))).de = false := by decide

/-- T-S41, T-G3: HLT clears `RUN`, the same bit of a group 3 word does not. -/
theorem test_hlt :
    (nextOf (at_ 0o200 0o7402)).run = false ∧ (nextOf (at_ 0o200 0o7402)).pc = 0o201 ∧
    (nextOf (at_ 0o200 0o7403)).run = true := by decide

/-- T-S42 -/
theorem test_cla_osr_hlt :
    (nextOf ((at_ 0o200 0o7606 [] 0o1234).setSr 0o42)).ac = 0o42 ∧
    (nextOf ((at_ 0o200 0o7606 [] 0o1234).setSr 0o42)).run = false := by decide

/-- T-S43 -/
theorem test_skp_hlt :
    (nextOf (at_ 0o200 0o7412)).pc = 0o202 ∧ (nextOf (at_ 0o200 0o7412)).run = false := by decide

/-- 95_test_vectors.md section 2.3: what the rule fixes of a word with both directions. -/
theorem test_both_directions_fixed_part :
    (nextOf (at_ 0o200 0o7215 [] 0o1234)).pc = 0o201 ∧ (nextOf (at_ 0o200 0o7215 [] 0o1234)).run = true ∧
    (nextOf (at_ 0o200 0o7215 [] 0o1234)).mem.read 0 = 0 := ⟨rfl, rfl, rfl⟩

/-! ## Interrupts, environment -/

/-- T-X8 -/
theorem test_halt_and_interrupt :
    after (interrupting (at_ 0o200 0o7402)) = (0, 0, 1, 0o201) ∧
    (nextOf (interrupting (at_ 0o200 0o7402))).run = false ∧
    (nextOf (interrupting (at_ 0o200 0o7402))).ie = false := by decide

/-- T-X9 -/
theorem test_store_to_zero_then_interrupt :
    after (interrupting (at_ 0o200 0o3000 [] 0o1111)) = (0, 0, 1, 0o201) := by decide

/-- T-X10 -/
theorem test_interrupt_at_last_word :
    after (interrupting (at_ 0o7777 0o7000)) = (0, 0, 1, 0) := by decide

/-- T-E3 -/
theorem test_step_in_halted :
    nextOf ((interrupting (at_ 0o201 0o7001)).setRun false) = (interrupting (at_ 0o201 0o7001)).setRun false := by
  decide

/-- T-E1 -/
theorem test_reset_keeps_memory :
    (at_ 0o300 0o7402 [(0, 0o301)] 0o1234 1).processorReset =
      { State.reset with mem := [(0, 0o301), (0o300, 0o7402)] } := by decide

/-- T-E5, T-E6 -/
theorem test_load_image_edges :
    loadImage [1, 2] 0o7776 State.reset =
      .next { State.reset with mem := [(0o7776, 1), (0o7777, 2)] } ∧
    loadImage [1, 2] 0o7777 State.reset = .refused .imageDoesNotFit := ⟨rfl, rfl⟩

/-- V10, with the record bytes 0x01, 0xFF of the addition. -/
theorem test_image_record :
    imageRecord 0x3A 0x15 = 0o7225 ∧ imageRecord 0x00 0x3F = 0o77 ∧ imageRecord 0x40 0x00 = 0 ∧
    imageRecord 0x01 0xFF = 0o477 := by decide

/-- The word that `withFetchWord` places is the one the next step runs. -/
theorem test_with_fetch_word :
    (nextOf (State.reset.withFetchWord 16 0o7402)).ir = 0o7402 ∧
    (nextOf (State.reset.withFetchWord 16 0o7402)).run = false ∧
    (nextOf (State.reset.withFetchWord 12 0o7240)).ac = 0o7777 := by decide

/-! ## Witnesses: the hypotheses of each statement that has any, met together -/

theorem test_witness_LaunchEstablishesInvariant : Memory.wf [(5, 7), (4095, 1)] = true := by decide

theorem test_witness_StepKeepsMachineInvariant :
    (MachineInv (at_ 0o200 0o6001) ∧ step (at_ 0o200 0o6001) = .next (nextOf (at_ 0o200 0o6001))) ∧
    MachineInv (nextOf (at_ 0o200 0o7402)) ∧
      step (nextOf (at_ 0o200 0o7402)) = .next (nextOf (at_ 0o200 0o7402)) :=
  ⟨⟨by decide, rfl⟩, by decide, rfl⟩

theorem test_witness_EnvironmentKeepsMachineInvariant :
    MachineInv (at_ 0o200 0o7402) ∧
    (EnvAction.reset ≠ .step ∧
      perform .reset (at_ 0o200 0o7402) = .next (at_ 0o200 0o7402).processorReset) ∧
    (EnvAction.memoryClear ≠ .step ∧
      perform .memoryClear (at_ 0o200 0o7402) = .next (at_ 0o200 0o7402).memoryClear) ∧
    (EnvAction.loadImage [1, 2] 0 ≠ .step ∧
      perform (.loadImage [1, 2] 0) State.reset = .next { State.reset with mem := [(0, 1), (1, 2)] }) ∧
    (EnvAction.writeSr 5 ≠ .step ∧ perform (.writeSr 5) State.reset = .next (State.reset.setSr 5)) ∧
    (EnvAction.writeIrq true ≠ .step ∧
      perform (.writeIrq true) State.reset = .next (State.reset.setIrq true)) :=
  ⟨by decide, ⟨by decide, rfl⟩, ⟨by decide, rfl⟩, ⟨by decide, rfl⟩, ⟨by decide, rfl⟩, by decide, rfl⟩

theorem test_witness_DecodeOfEncodeIsIdentity :
    Instr.wellFormed (.iot 0) = true ∧ Instr.wellFormed (.jmp ⟨true, true, 127⟩) = true := by decide

theorem test_witness_EveryWordIsOneInstruction :
    Instr.wellFormed (.iot 3) = true ∧ encode (.iot 3) = 0o6003#12 := by decide

theorem test_witness_DecodeFollowsClassTable :
    classCondition .and 0 = true ∧ classCondition .and 0o777#12 = true ∧
    classCondition .tad 0o1000#12 = true ∧ classCondition .tad 0o1777#12 = true ∧
    classCondition .isz 0o2000#12 = true ∧ classCondition .isz 0o2777#12 = true ∧
    classCondition .dca 0o3000#12 = true ∧ classCondition .dca 0o3777#12 = true ∧
    classCondition .jms 0o4000#12 = true ∧ classCondition .jms 0o4777#12 = true ∧
    classCondition .jmp 0o5000#12 = true ∧ classCondition .jmp 0o5777#12 = true ∧
    classCondition .ion 0o6001#12 = true ∧ classCondition .iof 0o6002#12 = true ∧
    classCondition .iot 0o6000#12 = true ∧ classCondition .iot 0o6777#12 = true ∧
    classCondition .opr1 0o7000#12 = true ∧ classCondition .opr1 0o7377#12 = true ∧
    classCondition .opr2 0o7400#12 = true ∧ classCondition .opr2 0o7776#12 = true ∧
    classCondition .opr3 0o7401#12 = true ∧ classCondition .opr3 0o7777#12 = true := by decide

theorem test_witness_CanonicalMemoryIsUnique :
    Memory.wf (Memory.write (Memory.write [] 3 5) 4 6) = true ∧
    Memory.wf (Memory.write (Memory.write [] 4 6) 3 5) = true ∧
    ∀ a, (Memory.write (Memory.write [] 3 5) 4 6).read a = (Memory.write (Memory.write [] 4 6) 3 5).read a :=
  ⟨by decide, by decide, fun _ => rfl⟩

theorem test_witness_LoadImageStoresWords :
    4094 + ([1, 2] : List Word).length ≤ 4096 ∧ ([1, 2] : List Word)[1]? = some 2 ∧ (4093#12).toNat < 4094 ∧
    0 + ([1, 2] : List Word).length ≤ (2#12).toNat ∧ 4096 < 4095 + ([1, 2] : List Word).length := by decide

theorem test_witness_AutoIndexRangeIsEightCells :
    ((⟨true, false, 8⟩ : MemRef).indirect = true ∧ 8 ≤ (specDirect ⟨true, false, 8⟩ State.reset.lpc).toNat ∧
      (specDirect ⟨true, false, 8⟩ State.reset.lpc).toNat ≤ 15) ∧
    ((⟨true, true, 15⟩ : MemRef).indirect = true ∧
      8 ≤ (specDirect ⟨true, true, 15⟩ (State.reset.setLpc 127).lpc).toNat ∧
      (specDirect ⟨true, true, 15⟩ (State.reset.setLpc 127).lpc).toNat ≤ 15) := by decide

/-- Sums 4096 and 4095, the boundary of the two clauses. -/
theorem test_witness_TadCarryComplementsLink :
    (4096 ≤ (at_ 0 0 [(5, 1)] 0o7777).ac.toNat +
      (readAfterEa ⟨false, false, 5⟩ (at_ 0 0 [(5, 1)] 0o7777)
        (effectiveAddress ⟨false, false, 5⟩ (at_ 0 0 [(5, 1)] 0o7777))).toNat) ∧
    (at_ 0 0 [(5, 1)] 0o7776).ac.toNat +
      (readAfterEa ⟨false, false, 5⟩ (at_ 0 0 [(5, 1)] 0o7776)
        (effectiveAddress ⟨false, false, 5⟩ (at_ 0 0 [(5, 1)] 0o7776))).toNat < 4096 := by decide

theorem test_witness_IonEffect_IofEffect :
    ((at_ 0o7777 0o6001).run = true ∧ (at_ 0o7777 0o6001).mem.read (at_ 0o7777 0o6001).pc = ionWord) ∧
    ((at_ 0o7777 0o6002).run = true ∧ (at_ 0o7777 0o6002).mem.read (at_ 0o7777 0o6002).pc = iofWord) := by
  decide

theorem test_witness_IotNoOperation :
    classCondition .iot 0o6000#12 = true ∧ classCondition .iot 0o6003#12 = true ∧
    classCondition .iot 0o6777#12 = true := by decide

theorem test_witness_Group1Sequence :
    Instr.group1Flags? (.opr1 { cma := true, cml := true }) = some { cma := true, cml := true } ∧
    Instr.group1Flags? .rtl = some { ral := true, two := true } := by decide

theorem test_witness_TwiceFlagAloneRotatesNothing :
    Instr.group1Flags? (.opr1 { two := true, iac := true }) = some { two := true, iac := true } ∧
    Instr.group1Flags? .iac = some { iac := true } ∧
    ({ two := true, iac := true } : Group1Flags).rar = false ∧
    ({ two := true, iac := true } : Group1Flags).ral = false ∧
    ({ iac := true } : Group1Flags) =
      { ({ two := true, iac := true } : Group1Flags) with
        two := !({ two := true, iac := true } : Group1Flags).two } := by decide

theorem test_witness_Group2Sequence :
    Instr.group2Flags? (.opr2 { sma := true, sza := true }) = some { sma := true, sza := true } ∧
    Instr.group2Flags? .skpHlt = some { inv := true, hlt := true } := by decide

theorem test_witness_CombinedSkipTestsAreOr :
    Instr.group2Flags? .sma = some { sma := true } ∧
    Instr.group2Flags? (.opr2 { sza := true, snl := true, inv := true }) =
      some { sza := true, snl := true, inv := true } ∧
    (({ sma := true } : Group2Flags).sma = true) ∧
    (({ sza := true, snl := true, inv := true } : Group2Flags).snl = true) := by decide

theorem test_witness_Group3OnlyClears :
    classCondition .opr3 0o7401#12 = true ∧ classCondition .opr3 0o7601#12 = true ∧
    classCondition .opr3 0o7777#12 = true := by decide

theorem test_witness_StepRunsDecodedInstruction :
    (at_ 0o200 0o2205).run = true ∧
    decode ((at_ 0o200 0o2205).mem.read (at_ 0o200 0o2205).pc) = .isz ⟨false, true, 5⟩ ∧
    Instr.wellFormed (.isz ⟨false, true, 5⟩) = true := by decide

theorem test_witness_CycleRefinesSpec_CycleRecordsFetch_CycleNeverWritesInputs :
    (at_ 0o200 0o2205).run = true ∧ step (at_ 0o200 0o2205) = .next (nextOf (at_ 0o200 0o2205)) :=
  ⟨rfl, rfl⟩

theorem test_witness_HaltedIsTerminal : (nextOf (at_ 0o200 0o7402)).run = false := by decide

/-- One state for each line of the table: ISZ with and without skip, JMS, JMP, a group 2 skip, a plain word. -/
theorem test_witness_PcAfterCycle :
    ∀ s ∈ [at_ 0o200 0o2205 [(0o205, 0o7777)], at_ 0o200 0o2205 [(0o205, 0o7776)], at_ 0o200 0o4205,
        at_ 0o200 0o5205, at_ 0o7777 0o7410, at_ 0o200 0o7440 [] 1, at_ 0o200 0o7001],
      s.run = true ∧ s.irq = false ∧ step s = .next (nextOf s) := by
  simp only [List.forall_mem_cons, List.not_mem_nil, false_imp_iff, implies_true, and_true]
  exact ⟨⟨rfl, rfl, rfl⟩, ⟨rfl, rfl, rfl⟩, ⟨rfl, rfl, rfl⟩, ⟨rfl, rfl, rfl⟩, ⟨rfl, rfl, rfl⟩, ⟨rfl, rfl, rfl⟩,
    rfl, rfl, rfl⟩

/-- V9: one cycle runs to the halt. -/
theorem test_witness_RunUntilHaltStopsAtHalt :
    runUntilHalt 1 (at_ 0o200 0o7402 [(0o201, 0o7001)]) = some (nextOf (at_ 0o200 0o7402 [(0o201, 0o7001)])) := by
  decide

theorem test_witness_InterruptEntryAfterInstruction :
    (interrupting (at_ 0o200 0o5277)).run = true ∧ (interrupting (at_ 0o200 0o5277)).ie = true ∧
    (interrupting (at_ 0o200 0o5277)).irq = true ∧
    (interrupting (at_ 0o200 0o5277)).mem.read (interrupting (at_ 0o200 0o5277)).pc ≠ ionWord ∧
    (interrupting (at_ 0o200 0o5277)).mem.read (interrupting (at_ 0o200 0o5277)).pc ≠ iofWord := by decide

theorem test_witness_MaskedInterruptIsHeld :
    (((at_ 0o200 0o7000).setIrq true).run = true ∧ ((at_ 0o200 0o7000).setIrq true).ie = false ∧
      ((at_ 0o200 0o7000).setIrq true).mem.read 0o200 ≠ ionWord) ∧
    (((at_ 0o200 0o7000).setIe true).run = true ∧ ((at_ 0o200 0o7000).setIe true).irq = false ∧
      ((at_ 0o200 0o7000).setIe true).mem.read 0o200 ≠ ionWord) := by decide

theorem test_witness_DeferredEnableMarksIon :
    (at_ 0o200 0o6001).run = true ∧ step (at_ 0o200 0o6001) = .next (nextOf (at_ 0o200 0o6001)) :=
  ⟨rfl, rfl⟩

/-- V8 -/
theorem test_witness_InterruptLatencyIsOneInstruction :
    ((at_ 0o200 0o6001 [(0o201, 0o7000)]).setIrq true).run = true ∧
    ((at_ 0o200 0o6001 [(0o201, 0o7000)]).setIrq true).irq = true ∧
    ((at_ 0o200 0o6001 [(0o201, 0o7000)]).setIrq true).mem.read 0o200 = ionWord ∧
    ((at_ 0o200 0o6001 [(0o201, 0o7000)]).setIrq true).mem.read 0o201 ≠ ionWord ∧
    ((at_ 0o200 0o6001 [(0o201, 0o7000)]).setIrq true).mem.read 0o201 ≠ iofWord := by decide

theorem test_witness_InterruptReturnSequence :
    (at_ 0o30 0o6001 [(0o31, 0o5400), (0, 0o310)]).run = true ∧
    (at_ 0o30 0o6001 [(0o31, 0o5400), (0, 0o310)]).mem.read 0o30 = ionWord ∧
    (at_ 0o30 0o6001 [(0o31, 0o5400), (0, 0o310)]).mem.read 0o31 = 0o5400#12 ∧
    (at_ 0o30 0o6001 [(0o31, 0o5400), (0, 0o310)]).irq = false ∧
    ((at_ 0o30 0o6001 [(0o31, 0o5400), (0, 0o310)]).setIrq true).irq = true := by decide

theorem test_witness_HaltStillTakesInterrupt :
    (interrupting (at_ 0o200 0o7412)).run = true ∧ (interrupting (at_ 0o200 0o7412)).ie = true ∧
    (interrupting (at_ 0o200 0o7412)).irq = true ∧
    (interrupting (at_ 0o200 0o7412)).mem.read 0o200 &&& 0o7403#12 = 0o7402#12 := by decide

/-- Both sides of the equivalence: HLT halts, the group 3 word with the same bit does not. -/
theorem test_witness_OnlyHaltWordsHalt :
    ((at_ 0o200 0o7402).run = true ∧ step (at_ 0o200 0o7402) = .next (nextOf (at_ 0o200 0o7402))) ∧
    ((at_ 0o200 0o7403).run = true ∧ step (at_ 0o200 0o7403) = .next (nextOf (at_ 0o200 0o7403))) :=
  ⟨⟨rfl, rfl⟩, rfl, rfl⟩

theorem test_witness_OnlyTadAndGroup1WriteLink :
    (at_ 0o200 0o2205).run = true ∧ step (at_ 0o200 0o2205) = .next (nextOf (at_ 0o200 0o2205)) ∧
    ((at_ 0o200 0o2205).mem.read 0o200).toNat / 512 ≠ 1 ∧
    ((at_ 0o200 0o2205).mem.read 0o200).toNat / 256 ≠ 14 :=
  ⟨rfl, rfl, by decide, by decide⟩

theorem test_witness_IotAndOperateKeepMemory :
    (at_ 0o200 0o6000).run = true ∧ step (at_ 0o200 0o6000) = .next (nextOf (at_ 0o200 0o6000)) ∧
    6 ≤ ((at_ 0o200 0o6000).mem.read 0o200).toNat / 512 ∧
    ((1#12) ≠ 0 ∨ (at_ 0o200 0o6000).irq = false ∨ (at_ 0o200 0o6000).ie = false) ∧
    ((0#12) ≠ 0 ∨ (at_ 0o200 0o6000).irq = false ∨ (at_ 0o200 0o6000).ie = false) :=
  ⟨rfl, rfl, by decide, by decide, by decide⟩

/-- `TAD I` of cell 15, at address 14: no clause of the frame excludes it. -/
theorem test_witness_CycleMemoryFrame :
    (at_ 0o200 0o1417).run = true ∧ step (at_ 0o200 0o1417) = .next (nextOf (at_ 0o200 0o1417)) ∧
    ¬(((at_ 0o200 0o1417).mem.read 0o200).toNat / 512 < 6 ∧
      specAutoIndexes (specMemRef ((at_ 0o200 0o1417).mem.read 0o200)) (specFetched (at_ 0o200 0o1417)) = true ∧
      14#12 = specDirect (specMemRef ((at_ 0o200 0o1417).mem.read 0o200)) 0o200) ∧
    ¬(2 ≤ ((at_ 0o200 0o1417).mem.read 0o200).toNat / 512 ∧
      ((at_ 0o200 0o1417).mem.read 0o200).toNat / 512 ≤ 4 ∧
      14#12 = specEa (specMemRef ((at_ 0o200 0o1417).mem.read 0o200)) (specFetched (at_ 0o200 0o1417))) ∧
    ¬((at_ 0o200 0o1417).ie = true ∧ (at_ 0o200 0o1417).irq = true ∧ 14#12 = 0) :=
  ⟨rfl, rfl, by decide, by decide, by decide⟩

/-- Word 0 with a request asserted and `IE` false: the frame does not exclude it. -/
theorem test_witness_CycleMemoryFrame_word0 :
    ((at_ 0o200 0o6001).setIrq true).run = true ∧
    step ((at_ 0o200 0o6001).setIrq true) = .next (nextOf ((at_ 0o200 0o6001).setIrq true)) ∧
    ¬((((at_ 0o200 0o6001).setIrq true).mem.read 0o200).toNat / 512 < 6) ∧
    ¬((((at_ 0o200 0o6001).setIrq true).mem.read 0o200).toNat / 512 ≤ 4) ∧
    ¬(((at_ 0o200 0o6001).setIrq true).ie = true) :=
  ⟨rfl, rfl, by decide, by decide, by decide⟩

/-- A run of two cycles in which `IE` stays false. -/
theorem test_witness_RequestInvisibleWhileDisabled :
    ∀ k, k ≤ 2 → ∀ u, runSteps k (at_ 0o200 0o7001) = .next u → u.ie = false := by
  intro k hk u h
  match k, hk with
  | 0, _ => cases h; rfl
  | 1, _ => cases h; rfl
  | 2, _ => cases h; rfl

/-- Two lists of inputs with the same switches, in the first of which `IE` stays false. -/
theorem test_witness_RequestInvisibleWhileDisabled_inputs :
    ([(true, 5), (false, 6)] : List (Bool × Word)).map Prod.snd =
      ([(false, 5), (true, 6)] : List (Bool × Word)).map Prod.snd ∧
    ∀ k, k ≤ 2 → ∀ u,
      runWith (([(true, 5), (false, 6)] : List (Bool × Word)).take k) (at_ 0o200 0o7001) = .next u →
        u.ie = false := by
  refine ⟨rfl, fun k hk u h => ?_⟩
  match k, hk with
  | 0, _ => cases h; rfl
  | 1, _ => cases h; rfl
  | 2, _ => cases h; rfl

theorem test_witness_SwitchesSeenOnlyBySwitchOr :
    ¬(((at_ 0o200 0o7405).mem.read 0o200).toNat / 256 = 15 ∧
      ((at_ 0o200 0o7405).mem.read 0o200).toNat % 2 = 0 ∧
      ((at_ 0o200 0o7405).mem.read 0o200).getLsbD 2 = true) := by decide

/-- The call at address 0o200 to X = 0o250, with and without an interrupt. -/
theorem test_witness_SubroutineCallReturns_call :
    (at_ 0o200 0o4250).run = true ∧ (at_ 0o200 0o4250).mem.read 0o200 = encode (.jms ⟨false, true, 0o50⟩) ∧
    0o250#12 = specEa ⟨false, true, 0o50⟩ (specFetched (at_ 0o200 0o4250)) ∧ (at_ 0o200 0o4250).ie = false ∧
    (interrupting (at_ 0o200 0o4250)).ie = true ∧ (interrupting (at_ 0o200 0o4250)).irq = true := by decide

/-- The return, with and without an interrupt, by a `JMP I` of either page bit, X the last word of a page. -/
theorem test_witness_SubroutineCallReturns_return :
    (specEa ⟨false, false, 0o177⟩ (specFetched (at_ 0o1000 0o4177)) = 0o177#12 ∧
      (at_ 0o1000 0o4177).mem.read 0o1000 = encode (.jms ⟨false, false, 0o177⟩)) ∧
    ((at_ 0o200 0o5577 [(0o177, 0o1001)]).mem.read 0o200 = encode (.jmp ⟨true, false, 0o177⟩) ∧
      specDirect ⟨true, false, 0o177⟩ 0o200 = 0o177#12 ∧
      (at_ 0o200 0o5577 [(0o177, 0o1001)]).mem.read 0o177 = (at_ 0o1000 0o4177).pc + 1 ∧
      (at_ 0o200 0o5577 [(0o177, 0o1001)]).ie = false) ∧
    ((at_ 0o100 0o5777 [(0o177, 0o1001)]).mem.read 0o100 = encode (.jmp ⟨true, true, 0o177⟩) ∧
      specDirect ⟨true, true, 0o177⟩ 0o100 = 0o177#12 ∧
      (at_ 0o100 0o5777 [(0o177, 0o1001)]).mem.read 0o177 = (at_ 0o1000 0o4177).pc + 1 ∧
      (interrupting (at_ 0o100 0o5777 [(0o177, 0o1001)])).ie = true) := by decide

/-- The two steps, X = 0o250 with the `JMP I` on its own page in the word after it. -/
theorem test_witness_SubroutineCallReturns :
    (at_ 0o200 0o4250 [(0o251, 0o5650)]).run = true ∧ (at_ 0o200 0o4250 [(0o251, 0o5650)]).ie = false ∧
    (at_ 0o200 0o4250 [(0o251, 0o5650)]).mem.read 0o200 = encode (.jms ⟨false, true, 0o50⟩) ∧
    0o250#12 = specEa ⟨false, true, 0o50⟩ (specFetched (at_ 0o200 0o4250 [(0o251, 0o5650)])) ∧
    specDirect ⟨true, true, 0o50⟩ (0o250 + 1) = 0o250#12 ∧
    readAfterEa ⟨false, true, 0o50⟩ (specFetched (at_ 0o200 0o4250 [(0o251, 0o5650)])) (0o250 + 1) =
      encode (.jmp ⟨true, true, 0o50⟩) := by decide

theorem test_witness_StoredWordIsFetchedNext :
    (at_ 0o200 0o3201).run = true ∧ (at_ 0o200 0o3201).irq = false ∧
    (at_ 0o200 0o3201).mem.read 0o200 = encode (.dca ⟨false, true, 1⟩) ∧
    specEa ⟨false, true, 1⟩ (specFetched (at_ 0o200 0o3201)) = (at_ 0o200 0o3201).pc + 1 := by decide

end Sys2Proof.Tests
end

section
/-! SUPPORT and PROOF. The environment's operations on memory (20_memory.md, R69). -/

namespace Sys2Proof.Machine

variable (s : State)

/-! ### `memory_clear()` and `reset()` -/

@[simp] theorem State.memoryClear_mem : s.memoryClear.mem = [] := State.setMem_mem s []

/-- The frame of `memory_clear()`: what it returns differs from the state before in memory at most. -/
theorem State.memoryClear_frame : s.memoryClear = { s with mem := s.memoryClear.mem } := rfl

theorem State.read_memoryClear (a : Word) : s.memoryClear.mem.read a = 0 := by
  rw [State.memoryClear_mem, Memory.read_nil]

@[simp] theorem State.processorReset_mem : s.processorReset.mem = s.mem :=
  State.setMem_mem State.reset s.mem

end Sys2Proof.Machine

namespace Sys2Proof

/-- Settles O11: the cleared memory lists no cell, so every address reads as an unlisted one; both operations
are one replacement of the memory, of `s` by the empty list and of `State.reset` by the memory of `s`. -/
theorem memoryClearZeroesEveryWord : Obligations.MemoryClearZeroesEveryWord := fun s a =>
  ⟨s.read_memoryClear a, s.memoryClear_frame, s.processorReset_mem⟩

end Sys2Proof
end

section
/-! SUPPORT and PROOF. The effective-address resolver (40_effective_address.md): the model's bit operations
tied to the spec's numbers. -/

namespace Sys2Proof.Machine

variable (s : State)

/-! ### The direct address -/

/-- The page mask keeps the five high bits: it shifts the seven offset bits out and zeros in. -/
theorem pageBase_eq_shift (a : Word) : pageBase a = a >>> 7 <<< 7 := by
  rw [BitVec.shiftLeft_ushiftRight]
  rfl

theorem pageBase_toNat (a : Word) : (pageBase a).toNat = a.toNat / 128 * 128 := by
  have page_lt : a.toNat / 128 * 128 < 2 ^ 12 := (Nat.div_mul_le_self _ _).trans_lt a.isLt
  rw [pageBase_eq_shift, BitVec.toNat_shiftLeft, BitVec.toNat_ushiftRight, Nat.shiftRight_eq_div_pow,
    Nat.shiftLeft_eq, Nat.mod_eq_of_lt page_lt]

theorem directAddress_eq_specDirect (m : MemRef) (lpc : Word) : directAddress m lpc = specDirect m lpc := by
  have offset_lt : m.offset.toNat < 2 ^ 12 := m.offset.isLt.trans (by decide)
  apply BitVec.eq_of_toNat_eq
  unfold directAddress specDirect mask12
  rw [BitVec.toNat_add, BitVec.toNat_ofNat, BitVec.toNat_setWidth, Nat.mod_eq_of_lt offset_lt,
    apply_ite BitVec.toNat, pageBase_toNat]
  rfl

/-! ### The effective address and the word the resolver writes -/

theorem effectiveAddress_eq_specEa (m : MemRef) : effectiveAddress m s = specEa m s := by
  unfold effectiveAddress specEa
  rw [directAddress_eq_specDirect]

theorem autoIncrements_eq_specAutoIndexes (m : MemRef) : autoIncrements m s = specAutoIndexes m s := by
  unfold autoIncrements specAutoIndexes isAutoIndex
  rw [directAddress_eq_specDirect, Bool.decide_and]
  rfl

theorem resolve_read_eq_readAfterEa (m : MemRef) (a : Word) :
    (resolve m s).mem.read a = readAfterEa m s a := by
  rw [resolve_read, autoIncrements_eq_specAutoIndexes, directAddress_eq_specDirect]
  rfl

end Sys2Proof.Machine

namespace Sys2Proof

/-- Settles O13: the page mask rounds `LPC` down to a multiple of 128, so both direct addresses are one word;
the effective address and the cell the resolver increments are then the same on both sides. -/
theorem effectiveAddressByMode : Obligations.EffectiveAddressByMode := fun m s =>
  ⟨Machine.directAddress_eq_specDirect m s.lpc, Machine.effectiveAddress_eq_specEa s m,
    Machine.resolve_eq s m, Machine.resolve_read_eq_readAfterEa s m⟩

end Sys2Proof
end

section
/-! SUPPORT and PROOF. The memory-reference instructions (41_memory_reference.md): each one's result written
as the state before with the named elements replaced, and memory read at every address. -/

namespace Sys2Proof.Machine

variable (s : State)

/-! ### A store after the resolver -/

/-- The frame of `MEM[ea] <- v` after `EA()`: two writes of memory, no register changed. -/
theorem resolve_writeMem_eq (m : MemRef) (ea v : Word) :
    (resolve m s).writeMem ea v = s.setMem ((resolve m s).mem.write ea v) := by
  rw [State.writeMem, resolve_eq]
  rfl

theorem resolve_write_read (m : MemRef) (ea v a : Word) :
    ((resolve m s).mem.write ea v).read a = if a = ea then v else readAfterEa m s a := by
  rw [Memory.read_write, resolve_read_eq_readAfterEa]

/-! ### The 13-bit sum -/

theorem addCombined_toNat (c : Combined) (w : Word) :
    (addCombined c w).toNat = (c.toNat + w.toNat) % 8192 := by
  rw [addCombined, BitVec.toNat_add, BitVec.toNat_setWidth_of_le (by decide)]

/-- Writing the combined value is the spec's `LAC <- c` on numbers. -/
theorem setLac_eq_withLac (c : Combined) : s.setLac c = withLac s c.toNat := by
  have link : c.extractLsb' 12 1 = BitVec.ofNat 1 (c.toNat / 4096) := by
    rw [BitVec.extractLsb', Nat.shiftRight_eq_div_pow]
  have accumulator : c.extractLsb' 0 12 = BitVec.ofNat 12 (c.toNat % 4096) := by
    apply BitVec.eq_of_toNat_eq
    rw [BitVec.extractLsb'_toNat, BitVec.toNat_ofNat, Nat.shiftRight_zero, Nat.mod_mod]
  rw [State.setLac, link, accumulator]
  rfl

/-! ### The skip on zero -/

theorem word_succ_eq_zero_iff (v : Word) : v + 1 = 0 ↔ v = 4095 := by
  constructor
  · intro succ_zero; bv_omega
  · intro eq_max; bv_omega

theorem applyIf_skip_eq (b : Bool) :
    applyIf b State.skip s = s.setPc (if b then s.pc + 1 else s.pc) := by
  cases b <;> rfl

/-! ### The six instructions -/

theorem exec_and_eq (m : MemRef) :
    exec (.and m) s = .next { s with
      ac := s.ac &&& readAfterEa m s (effectiveAddress m s), mem := (resolve m s).mem } := by
  rw [exec, execAnd, resolve_ac, resolve_read_eq_readAfterEa, resolve_eq]
  rfl

theorem exec_tad_eq (m : MemRef) :
    exec (.tad m) s = .next { withLac s ((s.l.toNat * 4096 + s.ac.toNat +
      (readAfterEa m s (effectiveAddress m s)).toNat) % 8192) with mem := (resolve m s).mem } := by
  rw [exec, execTad, setLac_eq_withLac, addCombined_toNat, State.lac_toNat, resolve_l, resolve_ac,
    resolve_read_eq_readAfterEa, resolve_eq]
  rfl

theorem exec_isz_eq (m : MemRef) :
    exec (.isz m) s = .next { s with
      pc := if readAfterEa m s (effectiveAddress m s) = 4095 then s.pc + 1 else s.pc
      mem := (resolve m s).mem.write (effectiveAddress m s)
        (readAfterEa m s (effectiveAddress m s) + 1) } := by
  rw [exec, execIsz, resolve_read_eq_readAfterEa, applyIf_skip_eq, resolve_writeMem_eq]
  simp only [beq_iff_eq, word_succ_eq_zero_iff]
  rfl

theorem exec_dca_eq (m : MemRef) :
    exec (.dca m) s = .next { s with
      ac := 0, mem := (resolve m s).mem.write (effectiveAddress m s) s.ac } := by
  rw [exec, execDca, resolve_ac, resolve_writeMem_eq]
  rfl

theorem exec_jms_eq (m : MemRef) :
    exec (.jms m) s = .next { s with
      pc := effectiveAddress m s + 1, mem := (resolve m s).mem.write (effectiveAddress m s) s.pc } := by
  rw [exec, execJms, resolve_pc, resolve_writeMem_eq]
  rfl

theorem exec_jmp_eq (m : MemRef) :
    exec (.jmp m) s = .next { s with pc := effectiveAddress m s, mem := (resolve m s).mem } := by
  rw [exec, execJmp, resolve_eq]
  rfl

end Sys2Proof.Machine

namespace Sys2Proof

/-- Settles O15: AND writes `AC` on the state `EA()` leaves, whose registers are those of `s`. -/
theorem andResult : Obligations.AndResult := fun m s =>
  ⟨_, Machine.exec_and_eq s m, Machine.resolve_read_eq_readAfterEa s m⟩

/-- Settles O16: the 13-bit addition is addition modulo 8192 of the numbers, and writing its two parts back
is the spec's `LAC <- c`. -/
theorem tadResult : Obligations.TadResult := fun m s =>
  ⟨_, Machine.exec_tad_eq s m, Machine.resolve_read_eq_readAfterEa s m⟩

/-- Settles O18: the incremented word is 0 exactly when the word read was 4095; the store hits the effective
address alone. -/
theorem iszResult : Obligations.IszResult := fun m s =>
  ⟨_, Machine.exec_isz_eq s m, fun a => by
    rw [Machine.resolve_write_read]
    by_cases at_ea : a = Machine.effectiveAddress m s
    · rw [if_pos at_ea, if_pos at_ea, at_ea]
    · rw [if_neg at_ea, if_neg at_ea]⟩

/-- Settles O19: `AC` is stored after the auto-index write, so the store wins where both hit one cell. -/
theorem dcaResult : Obligations.DcaResult := fun m s =>
  ⟨_, Machine.exec_dca_eq s m, Machine.resolve_write_read s m _ s.ac⟩

/-- Settles O20: `PC` is stored after the auto-index write, at the address fixed before that write. -/
theorem jmsResult : Obligations.JmsResult := fun m s =>
  ⟨_, Machine.exec_jms_eq s m, Machine.resolve_write_read s m _ s.pc⟩

/-- Settles O21: JMP makes no access of its own, so memory is what `EA()` leaves. -/
theorem jmpResult : Obligations.JmpResult := fun m s =>
  ⟨_, Machine.exec_jmp_eq s m, Machine.resolve_read_eq_readAfterEa s m⟩

end Sys2Proof
end

section
/-! SUPPORT and PROOF. The IOT class (30_encoding.md R86, 42_iot.md R143): which words the decoder reads as
IOT, and that executing one changes nothing. -/

namespace Sys2Proof

theorem opcodeField_toNat (w : Word) : (opcodeField w).toNat = w.toNat / 512 := by
  have opcode_lt : w.toNat / 512 < 2 ^ 3 := by have := w.isLt; omega
  rw [opcodeField, BitVec.extractLsb'_toNat, Nat.shiftRight_eq_div_pow]
  exact Nat.mod_eq_of_lt opcode_lt

theorem opcodeField_eq_iff (w : Word) (op : BitVec 3) : opcodeField w = op ↔ w.toNat / 512 = op.toNat := by
  rw [← BitVec.toNat_inj, opcodeField_toNat]

namespace Machine

theorem classCondition_iot_iff (w : Word) :
    classCondition .iot w = true ↔ opcodeField w = 6 ∧ w ≠ ionWord ∧ w ≠ iofWord := by
  rw [opcodeField_eq_iff]
  simp [classCondition, and_assoc]

/-- The tests of opcodes 0 to 5 fail on opcode 6, and the two parameters are excluded by hypothesis. -/
theorem decode_eq_iot {w : Word} (opcode : opcodeField w = 6) (not_ion : w ≠ ionWord)
    (not_iof : w ≠ iofWord) : decode w = .iot (w.extractLsb' 0 9) := by
  simp [decode, opcode, not_ion, not_iof]

theorem exec_iot_eq (code : BitVec 9) (s : State) : exec (.iot code) s = .next s := rfl

end Machine

/-- Settles O24: the decoder reads every opcode-6 word but the two parameters as IOT with the word's own code,
and IOT ignores its code. -/
theorem iotNoOperation : Obligations.IotNoOperation := fun s =>
  ⟨fun code => Machine.exec_iot_eq code s, fun w in_class => by
    obtain ⟨opcode, not_ion, not_iof⟩ := (Machine.classCondition_iot_iff w).mp in_class
    rw [Machine.decode_eq_iot opcode not_ion not_iof, Machine.exec_iot_eq]⟩

end Sys2Proof
end

section
/-! SUPPORT and PROOF. Operate group 1 (43_operate.md R152 to R162): every row performs the sequence of its
flags, and a write of the combined value is a write of its two parts. -/

namespace Sys2Proof.Machine

variable (s : State)

/-! ### The rows and the sequence -/

/-- 30_encoding.md R103: the rows that follow their own rule agree with the group 1 sequence on their flags. -/
theorem exec_of_group1Flags {i : Instr} {f : Group1Flags} (flags : i.group1Flags? = some f) :
    exec i s = .next (group1 f s) := by
  cases i <;> cases flags <;> rfl

/-- R162: without a direction the rotate step is skipped, and steps 1 to 5 do not look at the twice flag. -/
theorem group1_two_irrelevant (f : Group1Flags) (two : Bool) (no_right : f.rar = false)
    (no_left : f.ral = false) : group1 { f with two := two } s = group1 f s := by
  unfold group1 group1Rotate
  rw [no_right, no_left]
  rfl

/-! ### The two parts of the combined value -/

/-- A combined value whose number is `l * 4096 + a` writes `l` to the link and `a` to the accumulator. -/
theorem setLac_eq_of_toNat {c : Combined} {l : BitVec 1} {a : Word}
    (parts : c.toNat = l.toNat * 4096 + a.toNat) : s.setLac c = { s with l := l, ac := a } := by
  have same_lac : c = { s with l := l, ac := a }.lac := by
    rw [← BitVec.toNat_inj, State.lac_toNat, parts]
  rw [same_lac]
  exact State.setLac_self { s with l := l, ac := a }

theorem setLac_eq_of_quotient_remainder {c : Combined} {l a : Nat} (parts : c.toNat = l * 4096 + a)
    (a_lt : a < 4096) : s.setLac c = { s with l := BitVec.ofNat 1 l, ac := BitVec.ofNat 12 a } := by
  have l_lt : l < 2 := by have := c.isLt; omega
  apply setLac_eq_of_toNat
  rw [BitVec.toNat_ofNat, BitVec.toNat_ofNat, Nat.mod_eq_of_lt l_lt, Nat.mod_eq_of_lt a_lt, parts]

/-! ### The elementary actions -/

theorem not_eq_ofNat_sub (a : Word) : ~~~a = BitVec.ofNat 12 (4095 - a.toNat) := by
  bv_omega

theorem one_sub_eq_ofNat_sub (l : BitVec 1) : 1 - l = BitVec.ofNat 1 (1 - l.toNat) := by
  bv_omega

theorem complementAc_eq :
    s.complementAc = { s with ac := BitVec.ofNat 12 (4095 - s.ac.toNat) } := by
  rw [← not_eq_ofNat_sub]
  rfl

theorem complementLink_eq :
    s.complementLink = { s with l := BitVec.ofNat 1 (1 - s.l.toNat) } := by
  rw [← one_sub_eq_ofNat_sub]
  rfl

/-- R157: the carry out of the accumulator complements the link. -/
theorem incrementLac_eq :
    s.incrementLac =
      { s with
        ac := if s.ac = 4095 then 0 else s.ac + 1
        l := if s.ac = 4095 then 1 - s.l else s.l } := by
  apply setLac_eq_of_toNat
  have sum : (s.lac + 1).toNat = (s.l.toNat * 4096 + s.ac.toNat + 1) % 8192 := by
    rw [BitVec.toNat_add, State.lac_toNat]
    rfl
  rw [sum]
  by_cases carry : s.ac = 4095
  · rw [if_pos carry, if_pos carry]
    bv_omega
  · rw [if_neg carry, if_neg carry]
    bv_omega

/-! ### The rotates -/

theorem ror13_ror13_toNat (c : Combined) :
    (ror13 (ror13 c)).toNat = c.toNat / 4 + c.toNat % 4 * 2048 := by
  rw [ror13_toNat, ror13_toNat]
  omega

theorem rol13_rol13_toNat (c : Combined) :
    (rol13 (rol13 c)).toNat = c.toNat % 2048 * 4 + c.toNat / 2048 := by
  have c_lt := c.isLt
  have once : c.toNat * 2 % 8192 = c.toNat % 4096 * 2 := by omega
  have twice : (c.toNat % 4096 * 2 + c.toNat / 4096) * 2 % 8192 =
      c.toNat % 2048 * 4 + c.toNat / 4096 * 2 := by omega
  have out : (c.toNat % 4096 * 2 + c.toNat / 4096) / 4096 = c.toNat % 4096 / 2048 := by omega
  rw [rol13_toNat, rol13_toNat, once, twice, out]
  omega

/-- The second rotate reads the combined value the first one wrote, so the two compose (R160, R161). -/
theorem rotateRight_rotateRight : s.rotateRight.rotateRight = s.setLac (ror13 (ror13 s.lac)) := by
  rw [State.rotateRight, State.rotateRight, State.setLac_lac, State.setLac_setLac]

theorem rotateLeft_rotateLeft : s.rotateLeft.rotateLeft = s.setLac (rol13 (rol13 s.lac)) := by
  rw [State.rotateLeft, State.rotateLeft, State.setLac_lac, State.setLac_setLac]

theorem rotateRight_eq :
    s.rotateRight =
      { s with
        l := BitVec.ofNat 1 (s.ac.toNat % 2)
        ac := BitVec.ofNat 12 (s.ac.toNat / 2 + s.l.toNat * 2048) } := by
  apply setLac_eq_of_quotient_remainder
  · rw [ror13_toNat, State.lac_toNat]
    omega
  · omega

theorem rotateLeft_eq :
    s.rotateLeft =
      { s with
        l := BitVec.ofNat 1 (s.ac.toNat / 2048)
        ac := BitVec.ofNat 12 (s.ac.toNat * 2 % 4096 + s.l.toNat) } := by
  apply setLac_eq_of_quotient_remainder
  · rw [rol13_toNat, State.lac_toNat]
    omega
  · omega

theorem rotateRight_rotateRight_eq :
    s.rotateRight.rotateRight =
      { s with
        l := BitVec.ofNat 1 (s.ac.toNat / 2 % 2)
        ac := BitVec.ofNat 12 (s.ac.toNat / 4 + s.l.toNat * 1024 + s.ac.toNat % 2 * 2048) } := by
  rw [rotateRight_rotateRight]
  apply setLac_eq_of_quotient_remainder
  · rw [ror13_ror13_toNat, State.lac_toNat]
    omega
  · omega

theorem rotateLeft_rotateLeft_eq :
    s.rotateLeft.rotateLeft =
      { s with
        l := BitVec.ofNat 1 (s.ac.toNat / 1024 % 2)
        ac := BitVec.ofNat 12 (s.ac.toNat * 4 % 4096 + s.l.toNat * 2 + s.ac.toNat / 2048) } := by
  rw [rotateLeft_rotateLeft]
  apply setLac_eq_of_quotient_remainder
  · rw [rol13_rol13_toNat, State.lac_toNat]
    omega
  · omega

end Sys2Proof.Machine

namespace Sys2Proof

open Machine

/-- Settles O26: the two clears write a constant; the complements and the increment are subtraction and
addition of the numbers, the increment on the combined value. -/
theorem group1ElementaryActions : Obligations.Group1ElementaryActions := fun s =>
  ⟨rfl, rfl, congrArg _ (complementAc_eq s), congrArg _ (complementLink_eq s),
    congrArg _ (incrementLac_eq s)⟩

/-- Settles O27: each rotate writes the combined value whose number is the rotated one, and its two parts are
those of the statement. -/
theorem rotatesInRegisterTerms : Obligations.RotatesInRegisterTerms := fun s =>
  ⟨congrArg _ (rotateRight_eq s), congrArg _ (rotateLeft_eq s),
    congrArg _ (rotateRight_rotateRight_eq s), congrArg _ (rotateLeft_rotateLeft_eq s)⟩

/-- Settles O29: both words perform the sequence of their flags, which does not look at the twice flag. -/
theorem twiceFlagAloneRotatesNothing : Obligations.TwiceFlagAloneRotatesNothing := by
  refine ⟨fun s => rfl, fun i j f g s flags_i flags_j no_right no_left differ => ?_⟩
  subst differ
  rw [exec_of_group1Flags s flags_i, exec_of_group1Flags s flags_j,
    group1_two_irrelevant s f (!f.two) no_right no_left]

end Sys2Proof
end

section
/-! SUPPORT and PROOF. Operate group 2 (43_operate.md R168 to R179): every row performs the sequence of its
flags, and the skip test is the spec's test on numbers. -/

namespace Sys2Proof.Machine

variable (s : State)

/-! ### The skip test -/

theorem linkSet_iff (l : BitVec 1) : linkSet l = true ↔ l.toNat = 1 := by
  rw [linkSet, beq_iff_eq, ← BitVec.toNat_inj]
  rfl

theorem linkSet_eq_false_iff (l : BitVec 1) : linkSet l = false ↔ l.toNat = 0 := by
  rw [← Bool.not_eq_true, linkSet_iff]
  omega

theorem acZero_iff (a : Word) : acZero a = true ↔ a.toNat = 0 := by
  rw [acZero, beq_iff_eq, ← BitVec.toNat_inj]
  rfl

theorem acZero_eq_false_iff (a : Word) : acZero a = false ↔ a.toNat > 0 := by
  rw [← Bool.not_eq_true, acZero_iff]
  omega

theorem acMinus_iff (a : Word) : acMinus a = true ↔ a.toNat ≥ 2048 := by
  rw [acMinus, decide_eq_true_iff]

theorem acMinus_eq_false_iff (a : Word) : acMinus a = false ↔ a.toNat < 2048 := by
  rw [← Bool.not_eq_true, acMinus_iff]
  omega

/-- R169: the model's test on the registers is the spec's test on their numbers. -/
theorem skipTest_iff_specSkips (f : Group2Flags) (a : Word) (l : BitVec 1) :
    skipTest f a l = true ↔ specSkips f a.toNat l.toNat := by
  unfold skipTest specSkips
  cases f.inv with
  | false => simp [linkSet_iff, acZero_iff, acMinus_iff, or_assoc]
  | true =>
    simp [linkSet_eq_false_iff, acZero_eq_false_iff, acMinus_eq_false_iff, or_assoc, and_assoc]

/-! ### The rows and the sequence -/

/-- 30_encoding.md R103: the rows that follow their own rule agree with the group 2 sequence on their flags. -/
theorem exec_of_group2Flags {i : Instr} {f : Group2Flags} (flags : i.group2Flags? = some f) :
    exec i s = .next (group2 f s) := by
  cases i <;> cases flags
  case sza.refl => simp [exec, execSza, group2, skipTest]
  case snl.refl => simp [exec, execSnl, group2, skipTest]
  case sna.refl => simp [exec, execSna, group2, skipTest]
  case szl.refl => simp [exec, execSzl, group2, skipTest]
  all_goals rfl

/-- R168: the clear comes before the OR, so with both flags the accumulator takes the switches alone. -/
theorem group2_eq_specGroup2 (f : Group2Flags) : group2 f s = specGroup2 f s := by
  have accumulator : (if f.cla then 0 else s.ac) ||| (if f.osr then s.sr else 0) =
      if f.osr then (if f.cla then s.sr else s.ac ||| s.sr) else if f.cla then 0 else s.ac := by
    cases f.cla <;> cases f.osr <;> simp
  have run_flag : (s.run && !f.hlt) = if f.hlt then false else s.run := by
    cases f.hlt <;> simp
  rw [group2_eq, accumulator, run_flag]
  simp only [skipTest_iff_specSkips]
  rfl

theorem exec_eq_specGroup2 {i : Instr} {f : Group2Flags} (flags : i.group2Flags? = some f) :
    exec i s = .next (specGroup2 f s) := by
  rw [exec_of_group2Flags s flags, group2_eq_specGroup2]

/-! ### Words with test flags only -/

/-- None of the flags that act after the skip test is set: clear, OR switches, halt. -/
abbrev OnlyTests (f : Group2Flags) : Prop := f.cla = false ∧ f.osr = false ∧ f.hlt = false

/-- A word whose flags are test flags changes `PC` only. -/
theorem exec_of_onlyTests {i : Instr} {f : Group2Flags} (flags : i.group2Flags? = some f)
    (only : OnlyTests f) :
    exec i s = .next { s with pc := if specSkips f s.ac.toNat s.l.toNat then s.pc + 1 else s.pc } := by
  obtain ⟨no_cla, no_osr, no_hlt⟩ := only
  rw [exec_eq_specGroup2 s flags, specGroup2, no_cla, no_osr, no_hlt]
  rfl

theorem exec_skips_iff {i : Instr} {f : Group2Flags} {P : Prop} [Decidable P]
    (flags : i.group2Flags? = some f) (only : OnlyTests f)
    (condition : specSkips f s.ac.toNat s.l.toNat ↔ P) :
    exec i s = .next { s with pc := if P then s.pc + 1 else s.pc } := by
  rw [exec_of_onlyTests s flags only, if_congr condition rfl rfl]

theorem exec_skips_always {i : Instr} {f : Group2Flags} (flags : i.group2Flags? = some f)
    (only : OnlyTests f)
    (always : specSkips f s.ac.toNat s.l.toNat) :
    exec i s = .next { s with pc := s.pc + 1 } := by
  rw [exec_of_onlyTests s flags only, if_pos always]

/-! ### The conditions in register terms -/

theorem link_toNat_eq_one_iff (l : BitVec 1) : l.toNat = 1 ↔ l = 1 :=
  BitVec.toNat_inj (y := 1)

theorem link_toNat_eq_zero_iff (l : BitVec 1) : l.toNat = 0 ↔ l = 0 :=
  BitVec.toNat_inj (y := 0)

theorem ac_toNat_eq_zero_iff (a : Word) : a.toNat = 0 ↔ a = 0 :=
  BitVec.toNat_inj (y := 0)

/-- R177: with a test flag set, the test is an OR of the flagged conditions, each inverted if the sense is. -/
theorem specSkips_iff_or (f : Group2Flags) (a : Word) (l : BitVec 1)
    (tests : f.sma = true ∨ f.sza = true ∨ f.snl = true) :
    specSkips f a.toNat l.toNat ↔
      (f.sma = true ∧ (a.toNat ≥ 2048 ↔ f.inv = false)) ∨
        (f.sza = true ∧ (a = 0 ↔ f.inv = false)) ∨ (f.snl = true ∧ (l = 1 ↔ f.inv = false)) := by
  rw [← link_toNat_eq_one_iff, ← ac_toNat_eq_zero_iff]
  unfold specSkips
  cases f.inv with
  | false =>
    simp only [if_true, iff_true]
    rw [or_rotate, or_left_comm]
  | true =>
    have some_test : ¬(f.sma = false ∧ f.sza = false ∧ f.snl = false) := by
      rintro ⟨no_sma, no_sza, no_snl⟩
      simp [no_sma, no_sza, no_snl] at tests
    have link_zero_iff : l.toNat = 0 ↔ ¬ l.toNat = 1 := by omega
    simp only [some_test, link_zero_iff, ← Nat.not_le, Nat.le_zero, reduceCtorEq, ge_iff_le, gt_iff_lt,
      if_false, false_or, iff_false]
    rw [or_rotate, or_left_comm]

end Sys2Proof.Machine

namespace Sys2Proof

open Machine

/-- Settles O34: the skip test agrees with the spec's on every value on entry, and the clear before the OR is
a choice between three accumulators. -/
theorem group2Sequence : Obligations.Group2Sequence := fun _ _ s flags =>
  exec_eq_specGroup2 s flags

/-- Settles O35: the seven words have test flags only, and the test of one flag is that flag's condition. -/
theorem skipTests : Obligations.SkipTests := fun s =>
  ⟨exec_skips_iff s rfl ⟨rfl, rfl, rfl⟩ (by simp [link_toNat_eq_one_iff]),
    exec_skips_iff s rfl ⟨rfl, rfl, rfl⟩ (by simp),
    exec_skips_iff s rfl ⟨rfl, rfl, rfl⟩ (by simp [ac_toNat_eq_zero_iff]),
    exec_skips_iff s rfl ⟨rfl, rfl, rfl⟩ (by simp [link_toNat_eq_zero_iff]),
    exec_skips_iff s rfl ⟨rfl, rfl, rfl⟩ (by simp),
    exec_skips_iff s rfl ⟨rfl, rfl, rfl⟩ (by simp),
    exec_skips_always s rfl ⟨rfl, rfl, rfl⟩ (by simp)⟩

/-- Settles O36: with a test flag the spec's test is the OR of the statement; SPA and SNA leave no accumulator
out between them, so the words that flag both skip always. -/
theorem combinedSkipTestsAreOr : Obligations.CombinedSkipTestsAreOr := fun s => by
  have nonzero_or_plus : s.ac.toNat > 0 ∨ s.ac.toNat < 2048 := by omega
  refine ⟨fun i f flags tests => ⟨specGroup2 f s, exec_eq_specGroup2 s flags, ?general⟩,
    exec_skips_iff s rfl ⟨rfl, rfl, rfl⟩ ?smaSza, exec_skips_always s rfl ⟨rfl, rfl, rfl⟩ ?spaSna,
    exec_skips_iff s rfl ⟨rfl, rfl, rfl⟩ ?snaSzl, exec_skips_iff s rfl ⟨rfl, rfl, rfl⟩ ?spaSzl,
    exec_skips_always s rfl ⟨rfl, rfl, rfl⟩ ?spaSnaSzl⟩
  case general => exact if_congr (specSkips_iff_or f s.ac s.l tests) rfl rfl
  case smaSza => simp [ac_toNat_eq_zero_iff, or_comm]
  case spaSna => simpa using nonzero_or_plus
  case snaSzl => simp [link_toNat_eq_zero_iff, or_comm]
  case spaSzl => simp [link_toNat_eq_zero_iff, or_comm]
  case spaSnaSzl => simpa using Or.inr nonzero_or_plus

end Sys2Proof
end

section
/-! SUPPORT and PROOF. The cycle's interrupt entry (60_exceptions.md R215, R216): only ION and IOF write a flag
the interrupt check reads, so the check after any other word decides on the flags the cycle began with. -/

namespace Sys2Proof

/-! ### The decoder's operate rows -/

/-- 30_encoding.md R90: the row chosen for a set of group 1 flags sets exactly these flags. -/
theorem group1Flags_toInstr (f : Group1Flags) : f.toInstr.group1Flags? = some f := by
  unfold Group1Flags.toInstr
  split
  next both =>
    obtain ⟨right, left⟩ := Bool.and_eq_true_iff.mp both
    obtain ⟨cla, cll, cma, cml, rar, ral, two, iac⟩ := f
    cases right
    cases left
    rfl
  next =>
    cases row : namedGroup1.find? fun i => i.group1Flags? == some f with
    | none => rfl
    | some i => exact beq_iff_eq.mp (List.find?_some row :)

/-- 30_encoding.md R91: the row chosen for a set of group 2 flags sets exactly these flags. -/
theorem group2Flags_toInstr (f : Group2Flags) : f.toInstr.group2Flags? = some f := by
  unfold Group2Flags.toInstr
  cases row : namedGroup2.find? fun i => i.group2Flags? == some f with
  | none => rfl
  | some i => exact beq_iff_eq.mp (List.find?_some row :)

namespace Machine

variable (s : State)

/-- R183, R185: both rows of group 3 perform the clear and ignore the extension bits. -/
theorem exec_group3Instr (cla : Bool) (ext : BitVec 6) :
    exec (group3Instr cla ext) s = .next (s.setAc (if cla then 0 else s.ac)) := by
  unfold group3Instr
  split
  next alone =>
    obtain ⟨clears, -⟩ := Bool.and_eq_true_iff.mp alone
    cases clears
    rfl
  next => exact congrArg _ (group3_eq s cla)

/-! ### The flags of the interrupt check -/

/-- The execute step of `i` succeeds, and the flags the interrupt check reads are afterwards as before. -/
def KeepsInterruptFlags (i : Instr) : Prop :=
  ∃ u, exec i s = .next u ∧ u.de = s.de ∧ u.ie = s.ie ∧ u.irq = s.irq

theorem group1Flags_keepsInterruptFlags {i : Instr} {f : Group1Flags} (flags : i.group1Flags? = some f) :
    KeepsInterruptFlags s i :=
  ⟨_, (exec_of_group1Flags s flags).trans (congrArg _ (group1_eq s f)), rfl, rfl, rfl⟩

theorem group2Flags_keepsInterruptFlags {i : Instr} {f : Group2Flags} (flags : i.group2Flags? = some f) :
    KeepsInterruptFlags s i :=
  ⟨_, exec_eq_specGroup2 s flags, rfl, rfl, rfl⟩

theorem decodeOperate_keepsInterruptFlags (w : Word) : KeepsInterruptFlags s (decodeOperate w) := by
  unfold decodeOperate
  split_ifs
  case pos => exact group1Flags_keepsInterruptFlags s (group1Flags_toInstr _)
  case pos => exact group2Flags_keepsInterruptFlags s (group2Flags_toInstr _)
  case neg => exact ⟨_, exec_group3Instr s _ _, rfl, rfl, rfl⟩

/-- The classes in the decoder's order: memory reference, IOT, operate. -/
theorem decode_keepsInterruptFlags {w : Word} (not_ion : w ≠ ionWord) (not_iof : w ≠ iofWord) :
    KeepsInterruptFlags s (decode w) := by
  unfold decode
  rw [if_neg not_ion, if_neg not_iof]
  split_ifs
  · exact ⟨_, exec_and_eq s _, rfl, rfl, rfl⟩
  · exact ⟨_, exec_tad_eq s _, rfl, rfl, rfl⟩
  · exact ⟨_, exec_isz_eq s _, rfl, rfl, rfl⟩
  · exact ⟨_, exec_dca_eq s _, rfl, rfl, rfl⟩
  · exact ⟨_, exec_jms_eq s _, rfl, rfl, rfl⟩
  · exact ⟨_, exec_jmp_eq s _, rfl, rfl, rfl⟩
  · exact ⟨_, exec_iot_eq _ s, rfl, rfl, rfl⟩
  · exact decodeOperate_keepsInterruptFlags s w

/-! ### The cycle -/

theorem fetch_eq_specFetched : s.fetch = specFetched s := rfl

variable {s}

theorem step_eq_interruptCheck {u : State} (running : s.run = true)
    (executed : exec (decode (s.mem.read s.pc)) (specFetched s) = .next u) :
    step s = .next u.interruptCheck := by
  rw [step, if_pos running, State.fetch_ir, fetch_eq_specFetched, executed]

theorem interruptCheck_eq_interruptEntry (takes : specTakes s) : s.interruptCheck = s.interruptEntry := by
  obtain ⟨-, -, -, entered⟩ | ⟨not_taken, -⟩ := s.interruptCheck_cases
  · exact entered
  · exact absurd takes not_taken

theorem entryOf_interruptEntry : EntryOf s s.interruptEntry :=
  ⟨rfl, Memory.read_write_same s.mem 0 s.pc, fun _ not_saved => Memory.read_write_other s.mem s.pc not_saved⟩

end Machine

open Machine

/-- Settles O45: fetch clears `DE` and keeps `IE` and `IRQ`, the instruction keeps all three, so the check
takes the interrupt, in a halting cycle too. -/
theorem interruptEntryAfterInstruction : Obligations.InterruptEntryAfterInstruction := by
  intro s running enabled requested not_ion not_iof
  obtain ⟨u, executed, same_de, same_ie, same_irq⟩ :=
    decode_keepsInterruptFlags (specFetched s) not_ion not_iof
  have takes : specTakes u := ⟨same_de, same_ie.trans enabled, same_irq.trans requested⟩
  refine ⟨u, u.interruptEntry, executed, entryOf_interruptEntry, ?_⟩
  rw [step_eq_interruptCheck running executed, interruptCheck_eq_interruptEntry takes]

end Sys2Proof
end

section
/-! SUPPORT and PROOF. The decoder and the encoder (30_encoding.md): the class table read on numbers, and the
round trip in both directions. -/

namespace Sys2Proof

open Machine

/-! ### The class of a word -/

theorem opcodeField_eq_seven {w : Word} (operate : 7 ≤ w.toNat / 512) : opcodeField w = 7 := by
  rw [opcodeField_eq_iff]
  have := w.isLt
  change w.toNat / 512 = 7
  omega

/-- A bit of a word on numbers. -/
theorem getLsbD_eq_decide (w : Word) (i : Nat) : w.getLsbD i = decide (w.toNat / 2 ^ i % 2 = 1) :=
  Nat.testBit_eq_decide_div_mod_eq

theorem getLsbD_eight_of_group1 {w : Word} (group : w.toNat / 256 = 14) : w.getLsbD 8 = false := by
  rw [getLsbD_eq_decide, decide_eq_false_iff_not]
  omega

theorem getLsbD_eight_of_group23 {w : Word} (group : w.toNat / 256 = 15) : w.getLsbD 8 = true := by
  rw [getLsbD_eq_decide, decide_eq_true_iff]
  omega

theorem getLsbD_zero_eq (w : Word) : w.getLsbD 0 = decide (w.toNat % 2 = 1) := by
  rw [getLsbD_eq_decide, pow_zero, Nat.div_one]

/-! ### The row of each class -/

theorem decode_and {w : Word} (opcode : opcodeField w = 0) : decode w = .and (specMemRef w) := by
  rw [decode, opcode]; rfl

theorem decode_tad {w : Word} (opcode : opcodeField w = 1) : decode w = .tad (specMemRef w) := by
  rw [decode, opcode]; rfl

theorem decode_isz {w : Word} (opcode : opcodeField w = 2) : decode w = .isz (specMemRef w) := by
  rw [decode, opcode]; rfl

theorem decode_dca {w : Word} (opcode : opcodeField w = 3) : decode w = .dca (specMemRef w) := by
  rw [decode, opcode]; rfl

theorem decode_jms {w : Word} (opcode : opcodeField w = 4) : decode w = .jms (specMemRef w) := by
  rw [decode, opcode]; rfl

theorem decode_jmp {w : Word} (opcode : opcodeField w = 5) : decode w = .jmp (specMemRef w) := by
  rw [decode, opcode]; rfl

theorem decode_ionWord : decode ionWord = .ion := rfl

theorem decode_iofWord : decode iofWord = .iof := rfl

theorem decode_eq_decodeOperate {w : Word} (operate : 7 ≤ w.toNat / 512) : decode w = decodeOperate w := by
  have opcode := opcodeField_eq_seven operate
  have not_ion : w ≠ ionWord := by rintro rfl; revert operate; decide
  have not_iof : w ≠ iofWord := by rintro rfl; revert operate; decide
  rw [decode, opcode, if_neg not_ion, if_neg not_iof]
  rfl

theorem decode_group1 {w : Word} (group : w.toNat / 256 = 14) :
    decode w = (specGroup1Flags w).toInstr := by
  rw [decode_eq_decodeOperate (by omega), decodeOperate]
  exact if_pos (getLsbD_eight_of_group1 group)

theorem decode_group2 {w : Word} (group : w.toNat / 256 = 15) (even : w.toNat % 2 = 0) :
    decode w = (specGroup2Flags w).toInstr := by
  have bit_eight : decBit w 3 = true := getLsbD_eight_of_group23 group
  have bit_zero : decBit w 11 = false := by
    change w.getLsbD 0 = false
    rw [getLsbD_zero_eq, decide_eq_false_iff_not]
    omega
  rw [decode_eq_decodeOperate (by omega), decodeOperate, bit_eight, bit_zero]
  rfl

theorem decode_group3 {w : Word} (group : w.toNat / 256 = 15) (odd : w.toNat % 2 = 1) :
    decode w = group3Instr (w.getLsbD 7) (w.extractLsb' 1 6) := by
  have bit_eight : decBit w 3 = true := getLsbD_eight_of_group23 group
  have bit_zero : decBit w 11 = true := by
    change w.getLsbD 0 = true
    rw [getLsbD_zero_eq, decide_eq_true_iff, odd]
  rw [decode_eq_decodeOperate (by omega), decodeOperate, bit_eight, bit_zero]
  rfl

theorem extension_eq_ofNat (w : Word) : w.extractLsb' 1 6 = BitVec.ofNat 6 (w.toNat / 2) := by
  rw [BitVec.extractLsb', Nat.shiftRight_eq_div_pow, pow_one]

/-- R92: the one group 3 word with the clear flag and no extension bit. -/
theorem clears_without_extension_iff {w : Word} (group : w.toNat / 256 = 15) (odd : w.toNat % 2 = 1) :
    (w.getLsbD 7 && BitVec.ofNat 6 (w.toNat / 2) == 0) = true ↔ w = 0o7601#12 := by
  rw [getLsbD_eq_decide, Bool.and_eq_true, decide_eq_true_iff, beq_iff_eq, ← BitVec.toNat_inj,
    ← BitVec.toNat_inj, BitVec.toNat_ofNat]
  change _ ∧ w.toNat / 2 % 64 = 0 ↔ w.toNat = 3969
  omega

theorem decode_group3_eq_ite {w : Word} (group : w.toNat / 256 = 15) (odd : w.toNat % 2 = 1) :
    decode w =
      if w = 0o7601#12 then .claGroup3 else .opr3 (w.getLsbD 7) (BitVec.ofNat 6 (w.toNat / 2)) := by
  rw [decode_group3 group odd, extension_eq_ofNat, group3Instr]
  exact if_congr (clears_without_extension_iff group odd) rfl rfl

/-- Settles O8: each class condition fixes the tests the decoder makes, and the fields of the row are the bits
of the spec's weights. -/
theorem decodeFollowsClassTable : Obligations.DecodeFollowsClassTable := by
  intro w
  have opcode (op : BitVec 3) (in_class : (w.toNat / 512 == op.toNat) = true) : opcodeField w = op :=
    (opcodeField_eq_iff w op).mpr (beq_iff_eq.mp in_class)
  refine ⟨fun c => decode_and (opcode 0 c), fun c => decode_tad (opcode 1 c),
    fun c => decode_isz (opcode 2 c), fun c => decode_dca (opcode 3 c), fun c => decode_jms (opcode 4 c),
    fun c => decode_jmp (opcode 5 c), fun c => ?ion, fun c => ?iof, fun c => ?iot, fun c => ?opr1,
    fun c => ?opr2, fun c => ?opr3⟩
  case ion => rw [beq_iff_eq.mp c, decode_ionWord]
  case iof => rw [beq_iff_eq.mp c, decode_iofWord]
  case iot =>
    obtain ⟨opcode, not_ion, not_iof⟩ := (classCondition_iot_iff w).mp c
    exact decode_eq_iot opcode not_ion not_iof
  case opr1 => rw [decode_group1 (beq_iff_eq.mp c), group1Flags_toInstr]
  case opr2 =>
    obtain ⟨group, even⟩ := Bool.and_eq_true_iff.mp c
    rw [decode_group2 (beq_iff_eq.mp group) (beq_iff_eq.mp even), group2Flags_toInstr]
  case opr3 =>
    obtain ⟨group, odd⟩ := Bool.and_eq_true_iff.mp c
    exact decode_group3_eq_ite (beq_iff_eq.mp group) (beq_iff_eq.mp odd)

/-- Settles O9: thirteen words, evaluated. -/
theorem specWordsDecode : Obligations.SpecWordsDecode := by
  unfold Obligations.SpecWordsDecode
  decide

/-! ### The fields of an encoded word -/

theorem encodeBit_getElem (b : Bool) (n i : Nat) (hi : i < 12) :
    (encodeBit b n)[i] = (b && decide (i = 11 - n)) := by
  cases b with
  | false => exact BitVec.getElem_zero hi
  | true =>
    have only_bit : (¬ i < 11 - n ∧ i - (11 - n) = 0) ↔ i = 11 - n := by omega
    simpa [encodeBit, ← decide_not, ← Bool.decide_and] using only_bit

theorem specMemRef_encodeMemRef (op : BitVec 3) (m : MemRef) : specMemRef (encodeMemRef op m) = m := by
  have indirect : (encodeMemRef op m).getLsbD 8 = m.indirect := by
    simp [encodeMemRef, encodeBit_getElem]
  have page : (encodeMemRef op m).getLsbD 7 = m.page := by
    simp [encodeMemRef, encodeBit_getElem]
  have offset : (encodeMemRef op m).extractLsb' 0 7 = m.offset := by
    ext i hi
    have in_word : i < 12 := by omega
    have below : i < 9 ∧ i ≠ 8 ∧ i ≠ 7 := by omega
    simp [encodeMemRef, encodeBit_getElem, in_word, below, BitVec.getLsbD_eq_getElem hi]
  change MemRef.mk _ _ ((encodeMemRef op m).extractLsb' 0 7) = m
  rw [indirect, page, offset]

theorem specGroup1Flags_encodeGroup1 (f : Group1Flags) : specGroup1Flags (encodeGroup1 f) = f := by
  simp [specGroup1Flags, encodeGroup1, encodeBit_getElem, g1ClaBit, g1CllBit, g1CmaBit, g1CmlBit, g1RarBit,
    g1RalBit, g1TwoBit, g1IacBit]

theorem specGroup2Flags_encodeGroup2 (f : Group2Flags) : specGroup2Flags (encodeGroup2 f) = f := by
  simp [specGroup2Flags, encodeGroup2, encodeBit_getElem, g2ClaBit, g2SmaBit, g2SzaBit, g2SnlBit, g2InvBit,
    g2OsrBit, g2HltBit]

theorem getLsbD_seven_encodeGroup3 (cla : Bool) (ext : BitVec 6) :
    (encodeGroup3 cla ext).getLsbD 7 = cla := by
  simp [encodeGroup3, encodeBit_getElem, g3ClaBit]

theorem extension_encodeGroup3 (cla : Bool) (ext : BitVec 6) :
    (encodeGroup3 cla ext).extractLsb' 1 6 = ext := by
  ext i hi
  have in_word : 1 + i < 12 := by omega
  have below : 1 + i ≠ 7 := by omega
  have no_extension : ∀ k < 6, (0o7401#12).getLsbD (1 + k) = false := by decide
  have constant := (BitVec.getLsbD_eq_getElem in_word).symm.trans (no_extension i hi)
  simp [encodeGroup3, encodeBit_getElem, g3ClaBit, in_word, below, constant, BitVec.getLsbD_eq_getElem hi]

theorem iot_code_encode (code : BitVec 9) : (encode (.iot code)).extractLsb' 0 9 = code := by
  ext i hi
  have in_word : i < 12 := by omega
  have no_code : ∀ k < 9, (0o6000#12).getLsbD k = false := by decide
  have constant := (BitVec.getLsbD_eq_getElem in_word).symm.trans (no_code i hi)
  simp [encode, in_word, constant, BitVec.getLsbD_eq_getElem hi]

/-! ### The rows of the operate words -/

theorem encode_of_group1Flags {i : Instr} {f : Group1Flags} (flags : i.group1Flags? = some f) :
    encode i = encodeGroup1 f := by
  cases i <;> cases flags <;> rfl

theorem encode_of_group2Flags {i : Instr} {f : Group2Flags} (flags : i.group2Flags? = some f) :
    encode i = encodeGroup2 f := by
  cases i <;> cases flags <;> rfl

/-- A well-formed instruction of group 1 is the row chosen for its flags (log 16). -/
theorem toInstr_of_group1Flags {i : Instr} {f : Group1Flags} (wf : i.wellFormed = true)
    (flags : i.group1Flags? = some f) : f.toInstr = i := by
  cases i
  case opr1 g =>
    cases flags
    obtain ⟨not_both, no_row⟩ := Bool.or_eq_false_iff.mp ((Bool.not_eq_true' _).mp wf)
    rw [Group1Flags.toInstr, not_both, List.find?_eq_none.mpr]
    · rfl
    · simpa using no_row
  all_goals cases flags <;> rfl

/-- A well-formed instruction of group 2 is the row chosen for its flags (log 16). -/
theorem toInstr_of_group2Flags {i : Instr} {f : Group2Flags} (wf : i.wellFormed = true)
    (flags : i.group2Flags? = some f) : f.toInstr = i := by
  cases i
  case opr2 g =>
    cases flags
    have no_row := (Bool.not_eq_true' _).mp wf
    rw [Group2Flags.toInstr, List.find?_eq_none.mpr]
    · rfl
    · simpa [Group2Flags.hasRow] using no_row
  all_goals cases flags <;> rfl

/-- The forms an instruction takes: the rows of groups 1 and 2 are known by their flags. -/
inductive InstrForm : Instr → Prop
  | and (m : MemRef) : InstrForm (.and m)
  | tad (m : MemRef) : InstrForm (.tad m)
  | isz (m : MemRef) : InstrForm (.isz m)
  | dca (m : MemRef) : InstrForm (.dca m)
  | jms (m : MemRef) : InstrForm (.jms m)
  | jmp (m : MemRef) : InstrForm (.jmp m)
  | ion : InstrForm .ion
  | iof : InstrForm .iof
  | iot (code : BitVec 9) : InstrForm (.iot code)
  | group1 {i : Instr} {f : Group1Flags} (flags : i.group1Flags? = some f) : InstrForm i
  | group2 {i : Instr} {f : Group2Flags} (flags : i.group2Flags? = some f) : InstrForm i
  | opr3 (cla : Bool) (ext : BitVec 6) : InstrForm (.opr3 cla ext)
  | claGroup3 : InstrForm .claGroup3

theorem instrForm (i : Instr) : InstrForm i := by
  cases i
  case and m => exact .and m
  case tad m => exact .tad m
  case isz m => exact .isz m
  case dca m => exact .dca m
  case jms m => exact .jms m
  case jmp m => exact .jmp m
  case ion => exact .ion
  case iof => exact .iof
  case iot code => exact .iot code
  case opr3 cla ext => exact .opr3 cla ext
  case claGroup3 => exact .claGroup3
  case opr2 | sma | sza | snl | spa | sna | szl | skp | claGroup2 | osr | hlt | group2NoFlag | las | szaCla
      | snaCla | smaCla | spaCla | claOsrHlt | skpHlt => exact .group2 rfl
  all_goals exact .group1 rfl

/-! ### Decoding an encoded instruction -/

theorem decode_encodeGroup1 (f : Group1Flags) : decode (encodeGroup1 f) = f.toInstr := by
  rw [decode_group1 (Laws.encodeGroup1_class f), specGroup1Flags_encodeGroup1]

theorem decode_encodeGroup2 (f : Group2Flags) : decode (encodeGroup2 f) = f.toInstr := by
  obtain ⟨group, even⟩ := Laws.encodeGroup2_class f
  rw [decode_group2 group even, specGroup2Flags_encodeGroup2]

theorem decode_encodeGroup3 (cla : Bool) (ext : BitVec 6) :
    decode (encodeGroup3 cla ext) = group3Instr cla ext := by
  obtain ⟨group, odd⟩ := Laws.encodeGroup3_class cla ext
  rw [decode_group3 group odd, getLsbD_seven_encodeGroup3, extension_encodeGroup3]

theorem opcodeField_encodeMemRef (op : BitVec 3) (m : MemRef) : opcodeField (encodeMemRef op m) = op :=
  (opcodeField_eq_iff _ op).mpr (Laws.encodeMemRef_class op m)

/-- Settles O6: the word meets the condition of the instruction's class, the fields read back are those
encoded, and a well-formed operate instruction is the row chosen for its flags. -/
theorem decodeOfEncodeIsIdentity : Obligations.DecodeOfEncodeIsIdentity := by
  intro i wf
  cases instrForm i with
  | and m => exact (decode_and (opcodeField_encodeMemRef 0 m)).trans (congrArg _ (specMemRef_encodeMemRef 0 m))
  | tad m => exact (decode_tad (opcodeField_encodeMemRef 1 m)).trans (congrArg _ (specMemRef_encodeMemRef 1 m))
  | isz m => exact (decode_isz (opcodeField_encodeMemRef 2 m)).trans (congrArg _ (specMemRef_encodeMemRef 2 m))
  | dca m => exact (decode_dca (opcodeField_encodeMemRef 3 m)).trans (congrArg _ (specMemRef_encodeMemRef 3 m))
  | jms m => exact (decode_jms (opcodeField_encodeMemRef 4 m)).trans (congrArg _ (specMemRef_encodeMemRef 4 m))
  | jmp m => exact (decode_jmp (opcodeField_encodeMemRef 5 m)).trans (congrArg _ (specMemRef_encodeMemRef 5 m))
  | ion => exact decode_ionWord
  | iof => exact decode_iofWord
  | iot code =>
    obtain ⟨opcode, not_ion, not_iof⟩ := (classCondition_iot_iff _).mp (Laws.EncodeClass.iot code wf)
    rw [decode_eq_iot opcode not_ion not_iof, iot_code_encode]
  | group1 flags => rw [encode_of_group1Flags flags, decode_encodeGroup1, toInstr_of_group1Flags wf flags]
  | group2 flags => rw [encode_of_group2Flags flags, decode_encodeGroup2, toInstr_of_group2Flags wf flags]
  | opr3 cla ext =>
    have not_claGroup3 : (cla && ext == 0) = false := (Bool.not_eq_true' _).mp wf
    rw [encode, decode_encodeGroup3, group3Instr, not_claGroup3]
    rfl
  | claGroup3 => exact decode_encodeGroup3 true 0

/-! ### Encoding a decoded word -/

/-- A field read out of a word and put back at its place is the word masked to that field. -/
theorem field_eq_mask (w : Word) (start len : Nat) :
    (w.extractLsb' start len).setWidth 12 <<< start = w &&& (BitVec.allOnes len).setWidth 12 <<< start := by
  ext i hi
  by_cases below : i < start
  · simp [below]
  · have place : start + (i - start) = i := by omega
    simp [below, place, BitVec.getLsbD_eq_getElem hi, Bool.and_comm]

theorem low_field_eq_mask (w : Word) (len : Nat) :
    (w.extractLsb' 0 len).setWidth 12 = w &&& (BitVec.allOnes len).setWidth 12 := by
  simpa only [BitVec.shiftLeft_zero] using field_eq_mask w 0 len

/-- A flag read out of a word and put back at its place is the word masked to that bit. -/
theorem encodeBit_decBit (w : Word) (n : Nat) : encodeBit (decBit w n) n = w &&& encodeBit true n := by
  ext i hi
  rw [encodeBit_getElem, BitVec.getElem_and, encodeBit_getElem, Bool.true_and]
  by_cases place : i = 11 - n
  · subst place
    simp [decBit, BitVec.getLsbD_eq_getElem hi]
  · simp [place]

/-- The selector bits `w[11:8]` with the `k` lowest bits, on numbers. -/
theorem selector_toNat (w : Word) {k : Nat} (k_le : k ≤ 8) :
    (w &&& (0o7400#12 ||| BitVec.ofNat 12 (2 ^ k - 1))).toNat =
      w.toNat / 256 * 256 + w.toNat % 2 ^ k := by
  have pow_le : 2 ^ k ≤ 2 ^ 8 := Nat.pow_le_pow_right (by decide) k_le
  have pow_pos : 0 < 2 ^ k := Nat.two_pow_pos k
  have high : w &&& 0o7400#12 = w >>> 8 <<< 8 :=
    (BitVec.shiftLeft_ushiftRight (x := w) (n := 8)).symm
  have high_lt : w.toNat / 256 * 256 < 2 ^ 12 := (Nat.div_mul_le_self _ _).trans_lt w.isLt
  have low : (w &&& BitVec.ofNat 12 (2 ^ k - 1)).toNat = w.toNat % 2 ^ k := by
    rw [BitVec.toNat_and, BitVec.toNat_ofNat, Nat.mod_eq_of_lt (by omega), Nat.and_two_pow_sub_one_eq_mod]
  have low_lt : w.toNat % 2 ^ k < 2 ^ 8 := (Nat.mod_lt _ pow_pos).trans_le pow_le
  have disjoint := Nat.shiftLeft_add_eq_or_of_lt low_lt (w.toNat / 256)
  rw [Nat.shiftLeft_eq] at disjoint
  rw [BitVec.and_or_distrib_left, BitVec.toNat_or, high, low, BitVec.toNat_shiftLeft, BitVec.toNat_ushiftRight,
    Nat.shiftRight_eq_div_pow, Nat.shiftLeft_eq, Nat.mod_eq_of_lt high_lt]
  exact disjoint.symm

theorem selector_group1 {w : Word} (group : w.toNat / 256 = 14) : 0o7000#12 = w &&& 0o7400#12 := by
  have selector := selector_toNat w (k := 0) (by decide)
  rw [group, pow_zero, Nat.mod_one] at selector
  exact (BitVec.eq_of_toNat_eq selector).symm

theorem selector_group2 {w : Word} (group : w.toNat / 256 = 15) (even : w.toNat % 2 = 0) :
    0o7400#12 = w &&& 0o7401#12 := by
  have selector := selector_toNat w (k := 1) (by decide)
  rw [group, pow_one, even] at selector
  exact (BitVec.eq_of_toNat_eq selector).symm

theorem selector_group3 {w : Word} (group : w.toNat / 256 = 15) (odd : w.toNat % 2 = 1) :
    0o7401#12 = w &&& 0o7401#12 := by
  have selector := selector_toNat w (k := 1) (by decide)
  rw [group, pow_one, odd] at selector
  exact (BitVec.eq_of_toNat_eq selector).symm

theorem encodeMemRef_fields (w : Word) : encodeMemRef (opcodeField w) (memRefField w) = w := by
  simp only [encodeMemRef, opcodeField, memRefField, field_eq_mask, low_field_eq_mask, encodeBit_decBit,
    ← BitVec.and_or_distrib_left]
  exact BitVec.and_allOnes

theorem encode_iot_fields {w : Word} (opcode : opcodeField w = 6) : encode (.iot (w.extractLsb' 0 9)) = w := by
  have selector : 0o6000#12 = (opcodeField w).setWidth 12 <<< 9 := by rw [opcode]; rfl
  simp only [encode, selector, opcodeField, field_eq_mask, low_field_eq_mask, ← BitVec.and_or_distrib_left]
  exact BitVec.and_allOnes

theorem encodeGroup1_fields {w : Word} (group : w.toNat / 256 = 14) : encodeGroup1 (group1Field w) = w := by
  simp only [encodeGroup1, group1Field, encodeBit_decBit, selector_group1 group, ← BitVec.and_or_distrib_left]
  exact BitVec.and_allOnes

theorem encodeGroup2_fields {w : Word} (group : w.toNat / 256 = 15) (even : w.toNat % 2 = 0) :
    encodeGroup2 (group2Field w) = w := by
  simp only [encodeGroup2, group2Field, encodeBit_decBit, selector_group2 group even,
    ← BitVec.and_or_distrib_left]
  exact BitVec.and_allOnes

theorem encodeGroup3_fields {w : Word} (group : w.toNat / 256 = 15) (odd : w.toNat % 2 = 1) :
    encodeGroup3 (decBit w g3ClaBit) (w.extractLsb' 1 6) = w := by
  rw [encodeGroup3, selector_group3 group odd, encodeBit_decBit, field_eq_mask, ← BitVec.and_or_distrib_left,
    ← BitVec.and_or_distrib_left]
  exact BitVec.and_allOnes

/-! ### Every word is the word of one instruction -/

/-- What the decoder answers, by the condition the word meets; the conditions cover all words. -/
inductive DecodeForm (w : Word) : Instr → Prop
  | and (opcode : w.toNat / 512 = 0) : DecodeForm w (.and (specMemRef w))
  | tad (opcode : w.toNat / 512 = 1) : DecodeForm w (.tad (specMemRef w))
  | isz (opcode : w.toNat / 512 = 2) : DecodeForm w (.isz (specMemRef w))
  | dca (opcode : w.toNat / 512 = 3) : DecodeForm w (.dca (specMemRef w))
  | jms (opcode : w.toNat / 512 = 4) : DecodeForm w (.jms (specMemRef w))
  | jmp (opcode : w.toNat / 512 = 5) : DecodeForm w (.jmp (specMemRef w))
  | ion (word : w = ionWord) : DecodeForm w .ion
  | iof (word : w = iofWord) : DecodeForm w .iof
  | iot (opcode : w.toNat / 512 = 6) (not_ion : w ≠ ionWord) (not_iof : w ≠ iofWord) :
      DecodeForm w (.iot (w.extractLsb' 0 9))
  | group1 (group : w.toNat / 256 = 14) : DecodeForm w (specGroup1Flags w).toInstr
  | group2 (group : w.toNat / 256 = 15) (even : w.toNat % 2 = 0) : DecodeForm w (specGroup2Flags w).toInstr
  | group3 (group : w.toNat / 256 = 15) (odd : w.toNat % 2 = 1) :
      DecodeForm w (group3Instr (w.getLsbD 7) (w.extractLsb' 1 6))

theorem decodeForm_decode (w : Word) : DecodeForm w (decode w) := by
  have opcode_iff := opcodeField_eq_iff w
  have opcode_lt : w.toNat / 512 < 8 := by have := w.isLt; omega
  match opcode : w.toNat / 512, opcode_lt with
  | 0, _ => rw [decode_and ((opcode_iff 0).mpr opcode)]; exact .and opcode
  | 1, _ => rw [decode_tad ((opcode_iff 1).mpr opcode)]; exact .tad opcode
  | 2, _ => rw [decode_isz ((opcode_iff 2).mpr opcode)]; exact .isz opcode
  | 3, _ => rw [decode_dca ((opcode_iff 3).mpr opcode)]; exact .dca opcode
  | 4, _ => rw [decode_jms ((opcode_iff 4).mpr opcode)]; exact .jms opcode
  | 5, _ => rw [decode_jmp ((opcode_iff 5).mpr opcode)]; exact .jmp opcode
  | 6, _ =>
    by_cases is_ion : w = ionWord
    · rw [is_ion]; exact .ion rfl
    by_cases is_iof : w = iofWord
    · rw [is_iof]; exact .iof rfl
    rw [decode_eq_iot ((opcode_iff 6).mpr opcode) is_ion is_iof]
    exact .iot opcode is_ion is_iof
  | 7, _ =>
    obtain group | group : w.toNat / 256 = 14 ∨ w.toNat / 256 = 15 := by omega
    · rw [decode_group1 group]; exact .group1 group
    obtain even | odd := Nat.mod_two_eq_zero_or_one w.toNat
    · rw [decode_group2 group even]; exact .group2 group even
    · rw [decode_group3 group odd]; exact .group3 group odd

theorem encodeMemRef_specMemRef {w : Word} {op : BitVec 3} (opcode : w.toNat / 512 = op.toNat) :
    encodeMemRef op (specMemRef w) = w := by
  rw [← (opcodeField_eq_iff w op).mpr opcode]
  exact encodeMemRef_fields w

theorem encode_group3Instr (cla : Bool) (ext : BitVec 6) :
    encode (group3Instr cla ext) = encodeGroup3 cla ext := by
  unfold group3Instr
  split
  next alone =>
    obtain ⟨clears, no_extension⟩ := Bool.and_eq_true_iff.mp alone
    rw [clears, beq_iff_eq.mp no_extension]
    rfl
  next => rfl

theorem encode_decode (w : Word) : encode (decode w) = w := by
  have form := decodeForm_decode w
  generalize decode w = i at form
  cases form with
  | and opcode => exact encodeMemRef_specMemRef (op := 0) opcode
  | tad opcode => exact encodeMemRef_specMemRef (op := 1) opcode
  | isz opcode => exact encodeMemRef_specMemRef (op := 2) opcode
  | dca opcode => exact encodeMemRef_specMemRef (op := 3) opcode
  | jms opcode => exact encodeMemRef_specMemRef (op := 4) opcode
  | jmp opcode => exact encodeMemRef_specMemRef (op := 5) opcode
  | ion word => exact word.symm
  | iof word => exact word.symm
  | iot opcode _ _ => exact encode_iot_fields ((opcodeField_eq_iff w 6).mpr opcode)
  | group1 group => exact (encode_of_group1Flags (group1Flags_toInstr _)).trans (encodeGroup1_fields group)
  | group2 group even =>
    exact (encode_of_group2Flags (group2Flags_toInstr _)).trans (encodeGroup2_fields group even)
  | group3 group odd => exact (encode_group3Instr _ _).trans (encodeGroup3_fields group odd)

theorem wellFormed_group1 (f : Group1Flags) : f.toInstr.wellFormed = true := by
  unfold Group1Flags.toInstr
  split
  next => rfl
  next not_both =>
    cases row : namedGroup1.find? fun i => i.group1Flags? == some f with
    | none =>
      have no_row := List.find?_eq_none.mp row
      have not_hasRow : f.hasRow = false := by
        rw [Group1Flags.hasRow, Bool.eq_false_of_not_eq_true not_both]
        simpa using no_row
      rw [Option.getD_none, Instr.wellFormed, not_hasRow]
      rfl
    | some i =>
      have named : ∀ j ∈ namedGroup1, j.wellFormed = true := by decide
      exact named i (List.mem_of_find?_eq_some row)

theorem wellFormed_group2 (f : Group2Flags) : f.toInstr.wellFormed = true := by
  unfold Group2Flags.toInstr
  cases row : namedGroup2.find? fun i => i.group2Flags? == some f with
  | none =>
    have no_row := List.find?_eq_none.mp row
    simpa [Instr.wellFormed, Group2Flags.hasRow] using no_row
  | some i =>
    have named : ∀ j ∈ namedGroup2, j.wellFormed = true := by decide
    exact named i (List.mem_of_find?_eq_some row)

theorem wellFormed_group3 (cla : Bool) (ext : BitVec 6) : (group3Instr cla ext).wellFormed = true := by
  unfold group3Instr
  split
  next => rfl
  next not_alone =>
    rw [Instr.wellFormed, Bool.eq_false_of_not_eq_true not_alone]
    rfl

theorem wellFormed_decode (w : Word) : (decode w).wellFormed = true := by
  have form := decodeForm_decode w
  generalize decode w = i at form
  cases form with
  | iot opcode not_ion not_iof =>
    have same_word := encode_iot_fields ((opcodeField_eq_iff w 6).mpr opcode)
    rw [Instr.wellFormed, same_word, bne_iff_ne.mpr not_ion, bne_iff_ne.mpr not_iof, Bool.and_self]
  | group1 _ => exact wellFormed_group1 _
  | group2 _ _ => exact wellFormed_group2 _
  | group3 _ _ => exact wellFormed_group3 _ _
  | _ => rfl

/-- Settles O7: the instruction is the one the decoder reads, and by O6 every well-formed instruction is what
its word decodes to. -/
theorem everyWordIsOneInstruction : Obligations.EveryWordIsOneInstruction := fun w =>
  ⟨decode w, wellFormed_decode w, encode_decode w, fun j wf same_word => by
    rw [← same_word, decodeOfEncodeIsIdentity j wf]⟩

end Sys2Proof
end

section
/-! SUPPORT and PROOF. The operate instructions on numbers (43_operate.md): the group 1 sequence, the rotates as
permutations of the combined value, the named combinations, group 3. -/

namespace Sys2Proof.Machine

variable (s : State)

/-! ### Steps 1 to 5 of the group 1 sequence on numbers -/

theorem applyIf_clearAc_ac_toNat (b : Bool) :
    (applyIf b State.clearAc s).ac.toNat = if b then 0 else s.ac.toNat := by
  cases b <;> rfl

theorem applyIf_clearLink_l_toNat (b : Bool) :
    (applyIf b State.clearLink s).l.toNat = if b then 0 else s.l.toNat := by
  cases b <;> rfl

theorem applyIf_complementAc_ac_toNat (b : Bool) :
    (applyIf b State.complementAc s).ac.toNat = if b then 4095 - s.ac.toNat else s.ac.toNat := by
  cases b
  · rfl
  · exact BitVec.toNat_not

theorem applyIf_complementLink_l_toNat (b : Bool) :
    (applyIf b State.complementLink s).l.toNat = if b then 1 - s.l.toNat else s.l.toNat := by
  cases b
  · rfl
  · rw [applyIf_true, State.complementLink_l, if_pos rfl]
    bv_omega

theorem applyIf_incrementLac_lac_toNat (b : Bool) :
    (applyIf b State.incrementLac s).lac.toNat = if b then (s.lac.toNat + 1) % 8192 else s.lac.toNat := by
  cases b
  · rfl
  · rw [applyIf_true, State.incrementLac, State.setLac_lac]
    exact BitVec.toNat_add s.lac 1

/-- Each of the five actions writes one part of the combined value, or all of it. -/
theorem group1BeforeRotate_lac_toNat (f : Group1Flags) :
    (group1BeforeRotate f s).lac.toNat = specBeforeRotate f s := by
  have clearAc_l (b : Bool) (t : State) : (applyIf b State.clearAc t).l = t.l := applyIf_field t _ b _ rfl
  have clearLink_ac (b : Bool) (t : State) : (applyIf b State.clearLink t).ac = t.ac :=
    applyIf_field t _ b _ rfl
  have complementAc_l (b : Bool) (t : State) : (applyIf b State.complementAc t).l = t.l :=
    applyIf_field t _ b _ rfl
  have complementLink_ac (b : Bool) (t : State) : (applyIf b State.complementLink t).ac = t.ac :=
    applyIf_field t _ b _ rfl
  rw [group1BeforeRotate, applyIf_incrementLac_lac_toNat]
  simp only [specBeforeRotate, State.lac_toNat,
    applyIf_complementLink_l_toNat, complementLink_ac, complementAc_l, applyIf_complementAc_ac_toNat,
    applyIf_clearLink_l_toNat, clearLink_ac, clearAc_l, applyIf_clearAc_ac_toNat]

theorem withLac_lac : withLac s s.lac.toNat = s := by
  rw [← setLac_eq_withLac, State.setLac_self]

theorem group1BeforeRotate_eq_withLac (f : Group1Flags) :
    group1BeforeRotate f s = withLac s (specBeforeRotate f s) := by
  rw [← group1BeforeRotate_lac_toNat]
  generalize frame : group1BeforeRotate f s = t
  have same_frame : withLac s t.lac.toNat = withLac t t.lac.toNat := by
    rw [← frame, group1BeforeRotate_eq]
    rfl
  rw [same_frame, withLac_lac]

/-! ### Step 6 on numbers -/

theorem rol13_toNat_eq_specRol (c : Combined) : (rol13 c).toNat = specRol c.toNat := by
  have top_bit : c.toNat / 4096 % 2 = c.toNat / 4096 := by have := c.isLt; omega
  rw [rol13_toNat, specRol, top_bit]

theorem ror13_toNat_eq_specRor (c : Combined) : (ror13 c).toNat = specRor c.toNat := ror13_toNat c

/-- The rotate step of `specGroup1`: what it makes of the number `c` that steps 1 to 5 left. -/
def specRotated (f : Group1Flags) (c : Nat) : Nat :=
  if f.ral = true ∧ f.rar = false then (if f.two then specRol (specRol c) else specRol c)
  else if f.rar = true ∧ f.ral = false then (if f.two then specRor (specRor c) else specRor c)
  else if f.rar = true ∧ f.ral = true then (Config.rotBoth (BitVec.ofNat 13 c) f.two).toNat
  else c

theorem specGroup1_eq_specRotated (f : Group1Flags) :
    specGroup1 f s = specRotated f (specBeforeRotate f s) := rfl

theorem group1Rotate_eq_withLac (f : Group1Flags) :
    group1Rotate f s = withLac s (specRotated f s.lac.toNat) := by
  obtain ⟨cla, cll, cma, cml, right, left, two, iac⟩ := f
  cases right <;> cases left
  case false.false => exact (withLac_lac s).symm
  case false.true =>
    change (if two then s.rotateLeft.rotateLeft else s.rotateLeft) = withLac s (if two then _ else _)
    rw [rotateLeft_rotateLeft, State.rotateLeft, setLac_eq_withLac, setLac_eq_withLac,
      rol13_toNat_eq_specRol, rol13_toNat_eq_specRol, apply_ite (withLac s)]
  case true.false =>
    change (if two then s.rotateRight.rotateRight else s.rotateRight) = withLac s (if two then _ else _)
    rw [rotateRight_rotateRight, State.rotateRight, setLac_eq_withLac, setLac_eq_withLac,
      ror13_toNat_eq_specRor, ror13_toNat_eq_specRor, apply_ite (withLac s)]
  case true.true =>
    change s.setLac (Config.rotBoth s.lac two) = withLac s (Config.rotBoth _ two).toNat
    rw [setLac_eq_withLac, BitVec.ofNat_toNat, BitVec.setWidth_eq]

/-- R152: the group 1 sequence computes the spec's number and writes it back. -/
theorem group1_eq_withLac (f : Group1Flags) : group1 f s = withLac s (specGroup1 f s) := by
  rw [group1, group1Rotate_eq_withLac, group1BeforeRotate_lac_toNat, group1BeforeRotate_eq_withLac,
    specGroup1_eq_specRotated]
  rfl

/-! ### The rotates undo each other -/

theorem ror13_rol13 : Function.LeftInverse ror13 rol13 := fun c => by
  have c_lt := c.isLt
  have shifted : c.toNat * 2 % 8192 = c.toNat % 4096 * 2 := by omega
  have high : (c.toNat % 4096 * 2 + c.toNat / 4096) / 2 = c.toNat % 4096 := by omega
  have low : (c.toNat % 4096 * 2 + c.toNat / 4096) % 2 = c.toNat / 4096 := by omega
  rw [← BitVec.toNat_inj, ror13_toNat, rol13_toNat, shifted, high, low]
  omega

theorem rol13_ror13 : Function.LeftInverse rol13 ror13 := fun c => by
  have c_lt := c.isLt
  have high : (c.toNat / 2 + c.toNat % 2 * 4096) * 2 % 8192 = c.toNat / 2 * 2 := by omega
  have low : (c.toNat / 2 + c.toNat % 2 * 4096) / 4096 = c.toNat % 2 := by omega
  rw [← BitVec.toNat_inj, rol13_toNat, ror13_toNat, high, low]
  omega

theorem rol13_iterate_four_toNat (c : Combined) :
    (rol13^[4] c).toNat = c.toNat % 512 * 16 + c.toNat / 512 := by
  change (rol13 (rol13 (rol13 (rol13 c)))).toNat = _
  have := c.isLt
  rw [rol13_rol13_toNat, rol13_rol13_toNat]
  omega

theorem rol13_iterate_eight_toNat (c : Combined) :
    (rol13^[4] (rol13^[4] c)).toNat = c.toNat % 32 * 256 + c.toNat / 32 := by
  have := c.isLt
  rw [rol13_iterate_four_toNat, rol13_iterate_four_toNat]
  omega

/-- R165: twelve of the thirteen places to the left is one place to the right. -/
theorem rol13_iterate_twelve (c : Combined) : rol13^[12] c = ror13 c := by
  have := c.isLt
  change rol13^[4] (rol13^[4] (rol13^[4] c)) = ror13 c
  rw [← BitVec.toNat_inj, rol13_iterate_eight_toNat, rol13_iterate_four_toNat, ror13_toNat]
  omega

theorem rol13_iterate_thirteen (c : Combined) : rol13^[13] c = c := by
  rw [Function.iterate_succ_apply', rol13_iterate_twelve, rol13_ror13]

theorem ror13_iterate_thirteen (c : Combined) : ror13^[13] c = c := by
  have undone := ror13_rol13.iterate 13 c
  rwa [rol13_iterate_thirteen] at undone

/-! ### Instructions executed one after another -/

theorem execList_cons {i : Instr} {t : State} (rest : List Instr) (executed : exec i s = .next t) :
    execList (i :: rest) s = execList rest t := by
  rw [execList, executed]

/-- An instruction that maps the combined value by `g`, repeated and followed by others. -/
theorem execList_replicate_append {i : Instr} {g : Combined → Combined}
    (maps : ∀ t : State, exec i t = .next (t.setLac (g t.lac))) (n : Nat) (rest : List Instr) :
    execList (List.replicate n i ++ rest) s = execList rest (s.setLac (g^[n] s.lac)) := by
  induction n generalizing s with
  | zero => exact congrArg _ (State.setLac_self s).symm
  | succ n ih =>
    rw [List.replicate_succ, List.cons_append, execList_cons s _ (maps s), ih, State.setLac_lac,
      State.setLac_setLac, Function.iterate_succ_apply]

theorem execList_replicate {i : Instr} {g : Combined → Combined}
    (maps : ∀ t : State, exec i t = .next (t.setLac (g t.lac))) (n : Nat) :
    execList (List.replicate n i) s = .next (s.setLac (g^[n] s.lac)) := by
  have appended := execList_replicate_append s maps n []
  rwa [List.append_nil] at appended

theorem exec_ral_eq : exec .ral s = .next (s.setLac (rol13 s.lac)) := rfl

theorem exec_rar_eq : exec .rar s = .next (s.setLac (ror13 s.lac)) := rfl

theorem exec_rtl_eq : exec .rtl s = .next (s.setLac (rol13^[2] s.lac)) := by
  rw [exec, execRtl, rotateLeft_rotateLeft, Function.iterate_succ_apply, Function.iterate_one]

theorem complementAc_complementAc : s.complementAc.complementAc = s := by
  rw [State.complementAc, State.complementAc_ac, BitVec.not_not]
  rfl

theorem complementLink_complementLink : s.complementLink.complementLink = s := by
  rw [State.complementLink, State.complementLink_l, sub_sub_cancel]
  rfl

end Sys2Proof.Machine

namespace Sys2Proof

open Machine

/-- Settles O25: the five actions before the rotate are arithmetic on the two parts, the rotates arithmetic on
the combined value. -/
theorem group1Sequence : Obligations.Group1Sequence := fun _ f s flags => by
  rw [exec_of_group1Flags s flags, group1_eq_withLac]

/-- Settles O31: the row is the group 1 sequence with both directions flagged. -/
theorem bothDirectionsApplyRotBoth : Obligations.BothDirectionsApplyRotBoth :=
  fun _ _ _ _ _ _ s => (group1Sequence _ _ s rfl).trans (by simp only [specGroup1]; rfl)

/-- Settles O28: twelve rotates left are one to the right, so thirteen are none; the right rotate is the inverse
of the left one. -/
theorem rotatesAndComplementsUndo : Obligations.RotatesAndComplementsUndo := fun s => by
  refine ⟨?ralRar, ?rarRal, ?ral13, ?rar13, ?rtl6ral, ?cma, ?cml⟩
  case ralRar =>
    rw [execList_cons s _ (exec_ral_eq s), execList_cons _ _ (exec_rar_eq _), State.setLac_lac, ror13_rol13,
      State.setLac_setLac, State.setLac_self]
    rfl
  case rarRal =>
    rw [execList_cons s _ (exec_rar_eq s), execList_cons _ _ (exec_ral_eq _), State.setLac_lac, rol13_ror13,
      State.setLac_setLac, State.setLac_self]
    rfl
  case ral13 =>
    rw [execList_replicate s exec_ral_eq, rol13_iterate_thirteen, State.setLac_self]
  case rar13 =>
    rw [execList_replicate s exec_rar_eq, ror13_iterate_thirteen, State.setLac_self]
  case rtl6ral =>
    rw [execList_replicate_append s exec_rtl_eq, ← Function.iterate_mul, rol13_iterate_twelve,
      execList_cons _ _ (exec_ral_eq _), State.setLac_lac, rol13_ror13, State.setLac_setLac, State.setLac_self]
    rfl
  case cma => exact congrArg _ (complementAc_complementAc s)
  case cml => exact congrArg _ (complementLink_complementLink s)

end Sys2Proof
end

section
/-! SUPPORT and PROOF. The named operate words (43_operate.md R186, 30_encoding.md R103) and group 3. -/

namespace Sys2Proof.Machine

variable (s : State)

/-! ### Combinations of group 1 -/

theorem exec_sta_eq : exec .sta s = .next { s with ac := 4095 } := by
  have complemented : ~~~(0 : Word) = 4095 := by decide
  change Host.Outcome.next s.clearAc.complementAc = _
  rw [State.complementAc, State.clearAc_ac, complemented]
  rfl

theorem exec_stl_eq : exec .stl s = .next { s with l := 1 } := by
  have complemented : (1 : BitVec 1) - 0 = 1 := by decide
  change Host.Outcome.next s.clearLink.complementLink = _
  rw [State.complementLink, State.clearLink_l, complemented]
  rfl

theorem not_eq_max_iff (a : Word) : ~~~a = 4095 ↔ a = 0 := by
  constructor
  · intro all_ones; bv_omega
  · intro zero; bv_omega

theorem not_add_one_eq_ofNat (a : Word) :
    (if a = 0 then 0 else ~~~a + 1) = BitVec.ofNat 12 ((4096 - a.toNat) % 4096) := by
  split
  next zero => rw [zero]; rfl
  next nonzero => bv_omega

theorem exec_cia_eq :
    exec .cia s = .next { s with
      ac := BitVec.ofNat 12 ((4096 - s.ac.toNat) % 4096), l := if s.ac = 0 then 1 - s.l else s.l } := by
  change Host.Outcome.next s.complementAc.incrementLac = _
  rw [incrementLac_eq, ← not_add_one_eq_ofNat]
  simp only [State.complementAc_ac, State.complementAc_l, not_eq_max_iff]
  rfl

theorem exec_claIac_eq : exec .claIac s = .next { s with ac := 1 } :=
  congrArg Host.Outcome.next (incrementLac_eq s.clearAc)

theorem exec_glk_eq : exec .glk s = .next { s with ac := BitVec.ofNat 12 s.l.toNat, l := 0 } := by
  change Host.Outcome.next s.clearAc.rotateLeft = _
  have high : s.clearAc.ac.toNat / 2048 = 0 := Nat.zero_div _
  have low : s.clearAc.ac.toNat * 2 % 4096 + s.clearAc.l.toNat = s.l.toNat := Nat.zero_add _
  rw [rotateLeft_eq, high, low]
  rfl

theorem exec_cllRal_eq :
    exec .cllRal s = .next { s with
      ac := BitVec.ofNat 12 (2 * s.ac.toNat % 4096), l := BitVec.ofNat 1 (s.ac.toNat / 2048) } := by
  change Host.Outcome.next s.clearLink.rotateLeft = _
  rw [rotateLeft_eq, Nat.mul_comm 2]
  rfl

theorem exec_cllRar_eq :
    exec .cllRar s = .next { s with
      ac := BitVec.ofNat 12 (s.ac.toNat / 2), l := BitVec.ofNat 1 (s.ac.toNat % 2) } := by
  change Host.Outcome.next s.clearLink.rotateRight = _
  have shifted_in : s.clearLink.l.toNat * 2048 = 0 := Nat.zero_mul _
  rw [rotateRight_eq, shifted_in, Nat.add_zero]
  rfl

theorem exec_iacRal_eq : exec .iacRal s = .next (withLac s (specRol ((specLac s + 1) % 8192))) := by
  rw [exec_of_group1Flags s (f := { iac := true, ral := true }) rfl, group1_eq_withLac, specGroup1,
    specBeforeRotate]
  rfl

/-! ### Combinations of group 2 -/

/-- A group 2 word whose skip test is the condition `P`. -/
theorem exec_group2_of_skips_iff {i : Instr} {f : Group2Flags} {P : Prop} [Decidable P]
    (flags : i.group2Flags? = some f) (condition : specSkips f s.ac.toNat s.l.toNat ↔ P) :
    exec i s = .next { s with
      pc := if P then s.pc + 1 else s.pc
      ac := if f.osr then (if f.cla then s.sr else s.ac ||| s.sr) else if f.cla then 0 else s.ac
      run := if f.hlt then false else s.run } := by
  rw [exec_eq_specGroup2 s flags, specGroup2, if_congr condition rfl rfl]

/-! ### Group 3 -/

theorem exec_opr3_eq (cla : Bool) (ext : BitVec 6) :
    exec (.opr3 cla ext) s = .next { s with ac := if cla then 0 else s.ac } :=
  congrArg Host.Outcome.next (group3_eq s cla)

end Sys2Proof.Machine

namespace Sys2Proof

open Machine

/-- Settles O32: each row performs the sequence of its flags; a sum or rotate of a cleared part leaves the
table's value. -/
theorem namedCombinations : Obligations.NamedCombinations := fun s =>
  ⟨rfl, exec_sta_eq s, exec_stl_eq s, exec_cia_eq s, exec_claIac_eq s, exec_glk_eq s, exec_cllRal_eq s,
    exec_cllRar_eq s, rfl,
    exec_group2_of_skips_iff s (f := { cla := true, osr := true }) (P := False) rfl (by simp),
    exec_group2_of_skips_iff s (f := { sza := true, cla := true }) rfl (by simp [ac_toNat_eq_zero_iff]),
    exec_group2_of_skips_iff s (f := { cla := true, osr := true, hlt := true }) (P := False) rfl (by simp),
    exec_group2_of_skips_iff s (f := { inv := true, hlt := true }) (P := True) rfl (by simp)⟩

/-- Settles O33: IAC RAL is the group 1 sequence of its two flags, the other three test the `AC` they clear. -/
theorem skipAndClearCombinations : Obligations.SkipAndClearCombinations := fun s => by
  refine ⟨exec_iacRal_eq s, ?snaCla,
    exec_group2_of_skips_iff s (f := { sma := true, cla := true }) rfl (by simp),
    exec_group2_of_skips_iff s (f := { sma := true, inv := true, cla := true }) rfl (by simp)⟩
  rw [← ite_not]
  exact exec_group2_of_skips_iff s (f := { sza := true, inv := true, cla := true }) rfl
    (by simp [Nat.pos_iff_ne_zero, ac_toNat_eq_zero_iff])

/-- Settles O30: with no flag set every step of the two sequences is left out. -/
theorem flaglessOperateWordsDoNothing : Obligations.FlaglessOperateWordsDoNothing := fun s =>
  ⟨rfl, exec_group2_of_skips_iff s (f := {}) (P := False) rfl (by simp)⟩

/-- Settles O37: the three rows follow the rule of their one flag. -/
theorem clearSwitchOrHalt : Obligations.ClearSwitchOrHalt := fun _ => ⟨rfl, rfl, rfl⟩

/-- Settles O38: no meaning of group 3 reads the extension bits, and the decoder takes the clear flag from the
bit of weight 128. -/
theorem group3OnlyClears : Obligations.Group3OnlyClears := by
  refine ⟨fun cla ext s => ⟨exec_opr3_eq s cla ext, rfl⟩, fun w s in_class => ?_⟩
  obtain ⟨group, odd⟩ := Bool.and_eq_true_iff.mp in_class
  rw [decode_group3 (beq_iff_eq.mp group) (beq_iff_eq.mp odd), exec_group3Instr]
  rfl

end Sys2Proof
end

section
/-! SUPPORT and PROOF. The cycle (44_cycle_scheduler.md R190): every execute step completes and is the spec's
relation, and the cycle is fetch, execute, interrupt check. -/

namespace Sys2Proof.Machine

variable {s : State}

/-! ### The execute step -/

/-- What is shown of the execute step of a decoded word: it completes, as the spec's relation says, and keeps
memory canonical. -/
def ExecutesAsSpec (w : Word) (s : State) (i : Instr) : Prop :=
  ∃ u, exec i s = .next u ∧ SpecExecute w s u ∧ (s.mem.wf = true → u.mem.wf = true)

theorem resolve_write_wf (m : MemRef) (a v : Word) (wf : s.mem.wf = true) :
    ((resolve m s).mem.write a v).wf = true :=
  Memory.wf_write _ a v (resolve_mem_wf s m wf)

theorem executesAsSpec_and {w : Word} (opcode : w.toNat / 512 = 0) :
    ExecutesAsSpec w s (.and (specMemRef w)) := by
  refine ⟨_, exec_and_eq s _, ?_, resolve_mem_wf s _⟩
  rw [SpecExecute, opcode, effectiveAddress_eq_specEa]
  exact ⟨rfl, resolve_read_eq_readAfterEa s _⟩

theorem executesAsSpec_tad {w : Word} (opcode : w.toNat / 512 = 1) :
    ExecutesAsSpec w s (.tad (specMemRef w)) := by
  refine ⟨_, exec_tad_eq s _, ?_, resolve_mem_wf s _⟩
  rw [SpecExecute, opcode, effectiveAddress_eq_specEa]
  exact ⟨rfl, resolve_read_eq_readAfterEa s _⟩

theorem executesAsSpec_isz {w : Word} (opcode : w.toNat / 512 = 2) :
    ExecutesAsSpec w s (.isz (specMemRef w)) := by
  refine ⟨_, exec_isz_eq s _, ?_, resolve_write_wf _ _ _⟩
  rw [SpecExecute, opcode, effectiveAddress_eq_specEa]
  exact ⟨rfl, resolve_write_read s _ _ _⟩

theorem executesAsSpec_dca {w : Word} (opcode : w.toNat / 512 = 3) :
    ExecutesAsSpec w s (.dca (specMemRef w)) := by
  refine ⟨_, exec_dca_eq s _, ?_, resolve_write_wf _ _ _⟩
  rw [SpecExecute, opcode, effectiveAddress_eq_specEa]
  exact ⟨rfl, resolve_write_read s _ _ _⟩

theorem executesAsSpec_jms {w : Word} (opcode : w.toNat / 512 = 4) :
    ExecutesAsSpec w s (.jms (specMemRef w)) := by
  refine ⟨_, exec_jms_eq s _, ?_, resolve_write_wf _ _ _⟩
  rw [SpecExecute, opcode, effectiveAddress_eq_specEa]
  exact ⟨rfl, resolve_write_read s _ _ _⟩

theorem executesAsSpec_jmp {w : Word} (opcode : w.toNat / 512 = 5) :
    ExecutesAsSpec w s (.jmp (specMemRef w)) := by
  refine ⟨_, exec_jmp_eq s _, ?_, resolve_mem_wf s _⟩
  rw [SpecExecute, opcode, effectiveAddress_eq_specEa]
  exact ⟨rfl, resolve_read_eq_readAfterEa s _⟩

theorem specExecute_iot_class {w : Word} (opcode : w.toNat / 512 = 6) (u : State) :
    SpecExecute w s u ↔
      if w = ionWord then u = { s with ie := true, de := true }
      else if w = iofWord then u = { s with ie := false } else u = s := by
  rw [SpecExecute, opcode]
  exact Iff.rfl

theorem specExecute_operate_class {w : Word} (opcode : w.toNat / 512 = 7) (u : State) :
    SpecExecute w s u ↔
      if w.toNat / 256 = 14 then u = withLac s (specGroup1 (specGroup1Flags w) s)
      else if w.toNat % 2 = 0 then u = specGroup2 (specGroup2Flags w) s
      else u = { s with ac := if w.getLsbD 7 then 0 else s.ac } := by
  rw [SpecExecute, opcode]
  exact Iff.rfl

theorem executesAsSpec_group1 {w : Word} (group : w.toNat / 256 = 14) :
    ExecutesAsSpec w s (specGroup1Flags w).toInstr := by
  refine ⟨_, group1Sequence _ _ s (group1Flags_toInstr _), ?_, id⟩
  rw [specExecute_operate_class (by omega), if_pos group]

theorem executesAsSpec_group2 {w : Word} (group : w.toNat / 256 = 15) (even : w.toNat % 2 = 0) :
    ExecutesAsSpec w s (specGroup2Flags w).toInstr := by
  refine ⟨_, group2Sequence _ _ s (group2Flags_toInstr _), ?_, id⟩
  rw [specExecute_operate_class (by omega), if_neg (by omega), if_pos even]

theorem executesAsSpec_group3 {w : Word} (group : w.toNat / 256 = 15) (odd : w.toNat % 2 = 1) :
    ExecutesAsSpec w s (group3Instr (w.getLsbD 7) (w.extractLsb' 1 6)) := by
  refine ⟨_, exec_group3Instr s _ _, ?_, id⟩
  rw [specExecute_operate_class (by omega), if_neg (by omega), if_neg (by omega)]
  rfl

/-- The execute step of every word, at every state. -/
theorem executesAsSpec_decode (w : Word) (s : State) : ExecutesAsSpec w s (decode w) := by
  have form := decodeForm_decode w
  generalize decode w = i at form
  cases form with
  | and opcode => exact executesAsSpec_and opcode
  | tad opcode => exact executesAsSpec_tad opcode
  | isz opcode => exact executesAsSpec_isz opcode
  | dca opcode => exact executesAsSpec_dca opcode
  | jms opcode => exact executesAsSpec_jms opcode
  | jmp opcode => exact executesAsSpec_jmp opcode
  | ion word => subst word; exact ⟨_, rfl, rfl, id⟩
  | iof word => subst word; exact ⟨_, rfl, rfl, id⟩
  | iot opcode not_ion not_iof =>
    refine ⟨s, rfl, ?_, id⟩
    rw [specExecute_iot_class opcode, if_neg not_ion, if_neg not_iof]
  | group1 group => exact executesAsSpec_group1 group
  | group2 group even => exact executesAsSpec_group2 group even
  | group3 group odd => exact executesAsSpec_group3 group odd

/-! ### The interrupt check -/

theorem interruptCheck_eq_self (not_taken : ¬specTakes s) : s.interruptCheck = s := by
  obtain ⟨no_de, enabled, requested, -⟩ | ⟨-, unchanged⟩ := s.interruptCheck_cases
  · exact absurd ⟨no_de, enabled, requested⟩ not_taken
  · exact unchanged

theorem not_specTakes_of_masked (masked : s.ie = false ∨ s.irq = false) : ¬specTakes s := by
  rintro ⟨-, enabled, requested⟩
  simp [enabled, requested] at masked

/-- The check does the entry or changes nothing, as the spec's condition says. -/
theorem interruptCheck_spec (s : State) :
    (specTakes s ∧ EntryOf s s.interruptCheck) ∨ (¬specTakes s ∧ s.interruptCheck = s) := by
  by_cases takes : specTakes s
  · exact .inl ⟨takes, interruptCheck_eq_interruptEntry takes ▸ entryOf_interruptEntry⟩
  · exact .inr ⟨takes, interruptCheck_eq_self takes⟩

/-! ### The cycle -/

theorem step_of_halted (halted : s.run = false) : step s = .next s := by
  rw [step, halted]
  rfl

/-- The cycle of a running state: `u` is the state after execute, the interrupt check comes last. -/
theorem step_of_running (running : s.run = true) :
    ∃ u, SpecExecute (s.mem.read s.pc) (specFetched s) u ∧ (s.mem.wf = true → u.mem.wf = true) ∧
      exec (decode (s.mem.read s.pc)) (specFetched s) = .next u ∧ step s = .next u.interruptCheck := by
  obtain ⟨u, executed, spec, keeps_wf⟩ := executesAsSpec_decode (s.mem.read s.pc) (specFetched s)
  exact ⟨u, spec, keeps_wf, executed, step_eq_interruptCheck running executed⟩

/-- What a cycle that answered `t` did. -/
theorem cycle_inversion {t : State} (running : s.run = true) (stepped : step s = .next t) :
    ∃ u, SpecExecute (s.mem.read s.pc) (specFetched s) u ∧ (s.mem.wf = true → u.mem.wf = true) ∧
      t = u.interruptCheck := by
  obtain ⟨u, spec, keeps_wf, -, answered⟩ := step_of_running running
  exact ⟨u, spec, keeps_wf, Host.Outcome.next.inj (stepped.symm.trans answered)⟩

theorem step_completes (s : State) : ∃ t, step s = .next t := by
  cases running : s.run with
  | false => exact ⟨s, step_of_halted running⟩
  | true =>
    obtain ⟨u, -, -, -, answered⟩ := step_of_running running
    exact ⟨_, answered⟩

theorem exec_completes (i : Instr) (s : State) : ∃ t, exec i s = .next t := by
  cases instrForm i with
  | and m => exact ⟨_, exec_and_eq s m⟩
  | tad m => exact ⟨_, exec_tad_eq s m⟩
  | isz m => exact ⟨_, exec_isz_eq s m⟩
  | dca m => exact ⟨_, exec_dca_eq s m⟩
  | jms m => exact ⟨_, exec_jms_eq s m⟩
  | jmp m => exact ⟨_, exec_jmp_eq s m⟩
  | ion | iof | iot | claGroup3 => exact ⟨_, rfl⟩
  | group1 flags => exact ⟨_, exec_of_group1Flags s flags⟩
  | group2 flags => exact ⟨_, exec_of_group2Flags s flags⟩
  | opr3 cla ext => exact ⟨_, exec_opr3_eq s cla ext⟩

theorem runWith_cons {t : State} {irq : Bool} {sr : Word} (inputs : List (Bool × Word))
    (stepped : step ((s.setIrq irq).setSr sr) = .next t) :
    runWith ((irq, sr) :: inputs) s = runWith inputs t := by
  rw [runWith, stepWith, stepped]

theorem runWith_completes (inputs : List (Bool × Word)) (s : State) : ∃ t, runWith inputs s = .next t := by
  induction inputs generalizing s with
  | nil => exact ⟨s, rfl⟩
  | cons input inputs ih =>
    obtain ⟨t, stepped⟩ := step_completes ((s.setIrq input.1).setSr input.2)
    obtain ⟨u, ran⟩ := ih t
    exact ⟨u, (runWith_cons inputs stepped).trans ran⟩

theorem runSteps_succ {t : State} (n : Nat) (stepped : step s = .next t) :
    runSteps (n + 1) s = runSteps n t := by
  rw [runSteps, stepped]

/-- A step of a running state whose word at `PC` is ION: `DE` is set, so no interrupt is taken (R214). -/
theorem step_of_ion (running : s.run = true) (word : s.mem.read s.pc = ionWord) :
    step s = .next { specFetched s with ie := true, de := true } := by
  have executed : exec (decode (s.mem.read s.pc)) (specFetched s) =
      .next { specFetched s with ie := true, de := true } := by
    rw [word]
    rfl
  rw [step_eq_interruptCheck running executed, interruptCheck_eq_self]
  rintro ⟨no_de, -, -⟩
  cases no_de

/-- A step of a running state whose word at `PC` is IOF: `IE` is clear at the check. -/
theorem step_of_iof (running : s.run = true) (word : s.mem.read s.pc = iofWord) :
    step s = .next { specFetched s with ie := false } := by
  have executed : exec (decode (s.mem.read s.pc)) (specFetched s) =
      .next { specFetched s with ie := false } := by
    rw [word]
    rfl
  rw [step_eq_interruptCheck running executed, interruptCheck_eq_self (not_specTakes_of_masked (.inl rfl))]

end Sys2Proof.Machine

namespace Sys2Proof

open Machine

/-- Settles O5: every meaning ends in a next state, so does the cycle around it, and a run is cycles one after
another. -/
theorem everyStepCompletes : Obligations.EveryStepCompletes :=
  ⟨exec_completes, step_completes, runWith_completes⟩

/-- Settles O22: ION leaves `DE` set, which the interrupt check of its own cycle sees. -/
theorem ionEffect : Obligations.IonEffect := fun _ => ⟨rfl, step_of_ion⟩

/-- Settles O23: IOF leaves `IE` clear, which the interrupt check of its own cycle sees. -/
theorem iofEffect : Obligations.IofEffect := fun _ => ⟨rfl, step_of_iof⟩

/-- Settles O39: the state after execute is the model's own, and the check is the spec's on it. -/
theorem stepRunsDecodedInstruction : Obligations.StepRunsDecodedInstruction := by
  rintro s i running rfl -
  obtain ⟨u, -, -, executed, stepped⟩ := step_of_running running
  exact ⟨u, u.interruptCheck, executed, interruptCheck_spec u, stepped⟩

/-- Settles O40: by the class of the word the execute step is the spec's relation, and the check is the spec's
on the state it leaves. -/
theorem cycleRefinesSpec : Obligations.CycleRefinesSpec := by
  intro s running
  obtain ⟨u, spec, -, -, stepped⟩ := step_of_running running
  exact ⟨u, u.interruptCheck, spec, interruptCheck_spec u, stepped⟩

end Sys2Proof
end

section
/-! SUPPORT and PROOF. What every cycle keeps: the registers, flags and words each class of word leaves
unchanged (10_state.md, 20_memory.md, 44_cycle_scheduler.md R199), and the machine invariant. -/

namespace Sys2Proof.Machine

variable {w : Word} {s t u : State}

/-! ### What the execute step changes -/

/-- The words a memory-reference instruction may change: the pointer cell of an auto-indexed reference, and
the effective address of ISZ, DCA and JMS. -/
def StoresTo (w : Word) (s : State) (a : Word) : Prop :=
  (specAutoIndexes (specMemRef w) s = true ∧ a = specDirect (specMemRef w) s.lpc) ∨
    (2 ≤ w.toNat / 512 ∧ w.toNat / 512 ≤ 4 ∧ a = specEa (specMemRef w) s)

/-- The shape of the state after execute, by the class of the word: which elements are new. -/
inductive ExecuteForm (w : Word) (s : State) : State → Prop
  | memRef (ac : Word) (l : BitVec 1) (pc : Word) (mem : Memory) (opcode : w.toNat / 512 < 6)
      (link : w.toNat / 512 ≠ 1 → l = s.l) (frame : ∀ a, ¬StoresTo w s a → mem.read a = s.mem.read a) :
      ExecuteForm w s { s with ac := ac, l := l, pc := pc, mem := mem }
  | ion (word : w = ionWord) : ExecuteForm w s { s with ie := true, de := true }
  | iof (word : w = iofWord) : ExecuteForm w s { s with ie := false }
  | iot (opcode : w.toNat / 512 = 6) (not_ion : w ≠ ionWord) : ExecuteForm w s s
  | group1 (c : Nat) (group : w.toNat / 256 = 14) : ExecuteForm w s (withLac s c)
  | group2 (group : w.toNat / 256 = 15) (even : w.toNat % 2 = 0) :
      ExecuteForm w s (specGroup2 (specGroup2Flags w) s)
  | group3 (ac : Word) (group : w.toNat / 256 = 15) (odd : w.toNat % 2 = 1) :
      ExecuteForm w s { s with ac := ac }

theorem readAfterEa_of_not_storesTo {a : Word} (kept : ¬StoresTo w s a) :
    readAfterEa (specMemRef w) s a = s.mem.read a :=
  if_neg fun pointer => kept (.inl pointer)

/-- A store to the effective address, at the addresses the instruction does not store to. -/
theorem store_of_not_storesTo {a v : Word} (stores : 2 ≤ w.toNat / 512 ∧ w.toNat / 512 ≤ 4)
    (kept : ¬StoresTo w s a) :
    (if a = specEa (specMemRef w) s then v else readAfterEa (specMemRef w) s a) = s.mem.read a := by
  obtain ⟨at_least_isz, at_most_jms⟩ := stores
  rw [if_neg fun target => kept (.inr ⟨at_least_isz, at_most_jms, target⟩), readAfterEa_of_not_storesTo kept]

theorem executeForm_of_spec (spec : SpecExecute w s u) : ExecuteForm w s u := by
  have opcode_lt : w.toNat / 512 < 8 := by have := w.isLt; omega
  match opcode : w.toNat / 512, opcode_lt with
  | 1, _ =>
    rw [SpecExecute, opcode] at spec
    obtain ⟨registers, reads⟩ := spec
    rw [registers]
    exact .memRef _ _ _ _ (by omega) (absurd opcode)
      fun a kept => (reads a).trans (readAfterEa_of_not_storesTo kept)
  | 0, _ | 5, _ =>
    rw [SpecExecute, opcode] at spec
    obtain ⟨registers, reads⟩ := spec
    rw [registers]
    exact .memRef _ _ _ _ (by omega) (fun _ => rfl)
      fun a kept => (reads a).trans (readAfterEa_of_not_storesTo kept)
  | 2, _ | 3, _ | 4, _ =>
    rw [SpecExecute, opcode] at spec
    obtain ⟨registers, reads⟩ := spec
    rw [registers]
    exact .memRef _ _ _ _ (by omega) (fun _ => rfl)
      fun a kept => (reads a).trans (store_of_not_storesTo (by omega) kept)
  | 6, _ =>
    rw [specExecute_iot_class opcode] at spec
    split_ifs at spec with is_ion is_iof
    · exact spec ▸ .ion is_ion
    · exact spec ▸ .iof is_iof
    · exact spec ▸ .iot opcode is_ion
  | 7, _ =>
    rw [specExecute_operate_class opcode] at spec
    by_cases group : w.toNat / 256 = 14
    · rw [if_pos group] at spec
      exact spec ▸ .group1 _ group
    by_cases even : w.toNat % 2 = 0
    · rw [if_neg group, if_pos even] at spec
      exact spec ▸ .group2 (by omega) even
    · rw [if_neg group, if_neg even] at spec
      exact spec ▸ .group3 _ (by omega) (by omega)

/-! ### What every execute step keeps -/

/-- ION and IOF are words of opcode 6, so no word of another opcode is one of them. -/
theorem ne_ionWord (opcode : w.toNat / 512 ≠ 6) : w ≠ ionWord := by
  rintro rfl
  exact opcode rfl

theorem ne_iofWord (opcode : w.toNat / 512 ≠ 6) : w ≠ iofWord := by
  rintro rfl
  exact opcode rfl

theorem execute_fetch_registers (form : ExecuteForm w s u) : u.ir = s.ir ∧ u.lpc = s.lpc := by
  cases form <;> exact ⟨rfl, rfl⟩

theorem execute_inputs (form : ExecuteForm w s u) : u.irq = s.irq ∧ u.sr = s.sr := by
  cases form <;> exact ⟨rfl, rfl⟩

theorem execute_link (form : ExecuteForm w s u) (not_tad : w.toNat / 512 ≠ 1)
    (not_group1 : w.toNat / 256 ≠ 14) : u.l = s.l := by
  cases form with
  | memRef ac l pc mem opcode link frame => exact link not_tad
  | group1 c group => exact absurd group not_group1
  | _ => rfl

theorem execute_mem (form : ExecuteForm w s u) {a : Word}
    (kept : w.toNat / 512 < 6 → ¬StoresTo w s a) : u.mem.read a = s.mem.read a := by
  cases form with
  | memRef ac l pc mem opcode link frame => exact frame a (kept opcode)
  | _ => rfl

theorem execute_de (form : ExecuteForm w s u) (cleared : s.de = false) : u.de = true ↔ w = ionWord := by
  have stays_clear (not_ion : w ≠ ionWord) : s.de = true ↔ w = ionWord := by simp [cleared, not_ion]
  cases form with
  | memRef ac l pc mem opcode link frame => exact stays_clear (ne_ionWord (by omega))
  | ion word => exact iff_of_true rfl word
  | iof word => exact stays_clear (by rw [word]; decide)
  | iot opcode not_ion => exact stays_clear not_ion
  | group1 c group => exact stays_clear (ne_ionWord (by omega))
  | group2 group even => exact stays_clear (ne_ionWord (by omega))
  | group3 ac group odd => exact stays_clear (ne_ionWord (by omega))

/-- Only ION sets `IE`, and it sets `DE` with it. -/
theorem execute_ie (form : ExecuteForm w s u) (enabled : u.ie = true) : u.de = true ∨ s.ie = true := by
  cases form with
  | ion word => exact .inl rfl
  | iof word => cases enabled
  | _ => exact .inr enabled

theorem ie_of_de (form : ExecuteForm w s u) (cleared : s.de = false) (set : u.de = true) : u.ie = true := by
  cases form with
  | ion word => rfl
  | _ => exact absurd (cleared.symm.trans set) Bool.false_ne_true

/-- The group 2 words with the halt flag, by the mask and on numbers (R91, R180). -/
theorem halt_mask_iff (w : Word) :
    w &&& 0o7403#12 = 0o7402#12 ↔ w.toNat / 256 = 15 ∧ w.toNat % 2 = 0 ∧ w.getLsbD 1 = true := by
  have selector := selector_toNat w (k := 2) (by decide)
  rw [← BitVec.toNat_inj, getLsbD_eq_decide, decide_eq_true_iff]
  change (w &&& 0o7403#12).toNat = 3842 ↔ _
  rw [show (w &&& 0o7403#12).toNat = _ from selector]
  omega

theorem specGroup2_run_eq_false_iff (f : Group2Flags) :
    (specGroup2 f s).run = false ↔ s.run = false ∨ f.hlt = true := by
  unfold specGroup2
  cases f.hlt <;> simp

theorem execute_run (form : ExecuteForm w s u) (running : s.run = true) :
    u.run = false ↔ w &&& 0o7403#12 = 0o7402#12 := by
  rw [halt_mask_iff]
  have stays_running (no_halt : ¬(w.toNat / 256 = 15 ∧ w.toNat % 2 = 0 ∧ w.getLsbD 1 = true)) :
      s.run = false ↔ w.toNat / 256 = 15 ∧ w.toNat % 2 = 0 ∧ w.getLsbD 1 = true := by
    simpa only [running, Bool.true_eq_false, false_iff] using no_halt
  have iot_word (word : w.toNat / 512 = 6) := stays_running fun halts => by omega
  cases form with
  | memRef ac l pc mem opcode link frame => exact stays_running fun halts => by omega
  | ion word => exact iot_word (by rw [word]; rfl)
  | iof word => exact iot_word (by rw [word]; rfl)
  | iot opcode not_ion => exact iot_word opcode
  | group1 c group => exact stays_running fun halts => by omega
  | group2 group even =>
    rw [specGroup2_run_eq_false_iff, running]
    simp [group, even, specGroup2Flags]
  | group3 ac group odd => exact stays_running fun halts => by omega

/-- An interrupt can be taken only if `IE` and `IRQ` were true before the cycle. -/
theorem enabled_of_specTakes (form : ExecuteForm w s u) (takes : specTakes u) :
    s.ie = true ∧ s.irq = true := by
  obtain ⟨no_de, enabled, requested⟩ := takes
  obtain ⟨same_irq, -⟩ := execute_inputs form
  refine ⟨(execute_ie form enabled).resolve_left ?_, same_irq.symm.trans requested⟩
  rw [no_de]
  exact Bool.false_ne_true

theorem not_specTakes_of_execute (form : ExecuteForm w s u) (masked : s.ie = false ∨ s.irq = false) :
    ¬specTakes u := by
  intro takes
  obtain ⟨enabled, requested⟩ := enabled_of_specTakes form takes
  simp [enabled, requested] at masked

/-! ### What the interrupt check keeps -/

variable (s)

@[simp] theorem interruptCheck_ir : s.interruptCheck.ir = s.ir := applyIf_field s _ _ _ rfl
@[simp] theorem interruptCheck_lpc : s.interruptCheck.lpc = s.lpc := applyIf_field s _ _ _ rfl
@[simp] theorem interruptCheck_run : s.interruptCheck.run = s.run := applyIf_field s _ _ _ rfl
@[simp] theorem interruptCheck_irq : s.interruptCheck.irq = s.irq := applyIf_field s _ _ _ rfl
@[simp] theorem interruptCheck_sr : s.interruptCheck.sr = s.sr := applyIf_field s _ _ _ rfl
@[simp] theorem interruptCheck_de : s.interruptCheck.de = s.de := applyIf_field s _ _ _ rfl
@[simp] theorem interruptCheck_ac : s.interruptCheck.ac = s.ac := applyIf_field s _ _ _ rfl
@[simp] theorem interruptCheck_l : s.interruptCheck.l = s.l := applyIf_field s _ _ _ rfl

variable {s}

theorem interruptCheck_read {a : Word} (kept : specTakes s → a ≠ 0) :
    s.interruptCheck.mem.read a = s.mem.read a := by
  obtain ⟨takes, entry⟩ | ⟨-, unchanged⟩ := interruptCheck_spec s
  · obtain ⟨-, -, others⟩ := entry
    exact others a (kept takes)
  · rw [unchanged]

theorem interruptCheck_mem_wf (wf : s.mem.wf = true) : s.interruptCheck.mem.wf = true := by
  obtain ⟨-, -, -, entered⟩ | ⟨-, unchanged⟩ := s.interruptCheck_cases
  · rw [entered]
    exact Memory.wf_write _ _ _ wf
  · rwa [unchanged]

/-! ### The program counter -/

theorem word_add_one_add_one (a : Word) : a + 1 + 1 = a + 2 := by
  bv_omega

section PcTable

variable (s)

theorem specPcAfter_isz (opcode : (s.mem.read s.pc).toNat / 512 = 2) :
    specPcAfter s =
      if readAfterEa (specMemRef (s.mem.read s.pc)) (specFetched s)
        (specEa (specMemRef (s.mem.read s.pc)) (specFetched s)) = 4095 then s.pc + 2 else s.pc + 1 :=
  if_pos opcode

theorem specPcAfter_jms (opcode : (s.mem.read s.pc).toNat / 512 = 4) :
    specPcAfter s = specEa (specMemRef (s.mem.read s.pc)) (specFetched s) + 1 := by
  simp [specPcAfter, opcode]

theorem specPcAfter_jmp (opcode : (s.mem.read s.pc).toNat / 512 = 5) :
    specPcAfter s = specEa (specMemRef (s.mem.read s.pc)) (specFetched s) := by
  simp [specPcAfter, opcode]

theorem specPcAfter_group2 (group : (s.mem.read s.pc).toNat / 256 = 15)
    (even : (s.mem.read s.pc).toNat % 2 = 0) :
    specPcAfter s =
      if specSkips (specGroup2Flags (s.mem.read s.pc)) s.ac.toNat s.l.toNat then s.pc + 2 else s.pc + 1 := by
  have opcode : (s.mem.read s.pc).toNat / 512 = 7 := by omega
  simp only [specPcAfter, opcode, group, even, Nat.reduceEqDiff, if_false, true_and]

theorem specPcAfter_next
    (other : (s.mem.read s.pc).toNat / 512 < 6 → (s.mem.read s.pc).toNat / 512 ∈ [0, 1, 3])
    (not_group2 : ¬((s.mem.read s.pc).toNat / 256 = 15 ∧ (s.mem.read s.pc).toNat % 2 = 0)) :
    specPcAfter s = s.pc + 1 := by
  have not_isz : (s.mem.read s.pc).toNat / 512 ≠ 2 := fun isz => by simp [isz] at other
  have not_jms : (s.mem.read s.pc).toNat / 512 ≠ 4 := fun jms => by simp [jms] at other
  have not_jmp : (s.mem.read s.pc).toNat / 512 ≠ 5 := fun jmp => by simp [jmp] at other
  simp only [specPcAfter, not_isz, not_jms, not_jmp, if_false]
  exact if_neg fun ⟨group, even, _⟩ => not_group2 ⟨group, even⟩

end PcTable

/-- R199, before the interrupt check. -/
theorem execute_pc (spec : SpecExecute (s.mem.read s.pc) (specFetched s) u) : u.pc = specPcAfter s := by
  have opcode_lt : (s.mem.read s.pc).toNat / 512 < 8 := by have := (s.mem.read s.pc).isLt; omega
  match opcode : (s.mem.read s.pc).toNat / 512, opcode_lt with
  | 2, _ =>
    rw [SpecExecute, opcode] at spec
    rw [spec.1, specPcAfter_isz s opcode, ← word_add_one_add_one]
    rfl
  | 4, _ =>
    rw [SpecExecute, opcode] at spec
    rw [spec.1, specPcAfter_jms s opcode]
  | 5, _ =>
    rw [SpecExecute, opcode] at spec
    rw [spec.1, specPcAfter_jmp s opcode]
  | 0, _ | 1, _ | 3, _ =>
    rw [SpecExecute, opcode] at spec
    rw [spec.1, specPcAfter_next s (by simp [opcode]) (by omega)]
    rfl
  | 6, _ =>
    rw [specExecute_iot_class opcode] at spec
    rw [specPcAfter_next s (by simp [opcode]) (by omega)]
    split_ifs at spec <;> rw [spec] <;> rfl
  | 7, _ =>
    rw [specExecute_operate_class opcode] at spec
    by_cases group : (s.mem.read s.pc).toNat / 256 = 14
    · rw [if_pos group] at spec
      rw [spec, specPcAfter_next s (by simp [opcode]) (by omega)]
      rfl
    by_cases even : (s.mem.read s.pc).toNat % 2 = 0
    · rw [if_neg group, if_pos even] at spec
      rw [spec, specPcAfter_group2 s (by omega) even, ← word_add_one_add_one]
      rfl
    · rw [if_neg group, if_neg even] at spec
      rw [spec, specPcAfter_next s (by simp [opcode]) (by omega)]
      rfl

end Sys2Proof.Machine

namespace Sys2Proof

open Machine

/-- Settles O41: fetch records the word and the old `PC`, and nothing after it writes `IR` or `LPC`. -/
theorem cycleRecordsFetch : Obligations.CycleRecordsFetch := by
  intro s t running stepped
  obtain ⟨u, spec, -, rfl⟩ := cycle_inversion running stepped
  obtain ⟨same_ir, same_lpc⟩ := execute_fetch_registers (executeForm_of_spec spec)
  exact ⟨(interruptCheck_ir u).trans same_ir, (interruptCheck_lpc u).trans same_lpc⟩

/-- Settles O47: fetch clears `DE`, only ION sets it, and the interrupt check keeps it. -/
theorem deferredEnableMarksIon : Obligations.DeferredEnableMarksIon := by
  intro s t running stepped
  obtain ⟨u, spec, -, rfl⟩ := cycle_inversion running stepped
  rw [interruptCheck_de]
  exact execute_de (executeForm_of_spec spec) rfl

/-- Settles O51: only the group 2 sequence writes `RUN`, by its halt flag. -/
theorem onlyHaltWordsHalt : Obligations.OnlyHaltWordsHalt := by
  intro s t running stepped
  obtain ⟨u, spec, -, rfl⟩ := cycle_inversion running stepped
  rw [interruptCheck_run]
  exact execute_run (executeForm_of_spec spec) running

/-- Settles O52: no class of word writes the inputs, nor does the interrupt entry. -/
theorem cycleNeverWritesInputs : Obligations.CycleNeverWritesInputs := by
  intro s t stepped
  cases running : s.run with
  | false =>
    rw [step_of_halted running] at stepped
    cases stepped
    exact ⟨rfl, rfl⟩
  | true =>
    obtain ⟨u, spec, -, rfl⟩ := cycle_inversion running stepped
    obtain ⟨same_irq, same_sr⟩ := execute_inputs (executeForm_of_spec spec)
    exact ⟨(interruptCheck_irq u).trans same_irq, (interruptCheck_sr u).trans same_sr⟩

/-- Settles O53: TAD and group 1 are the only classes that write the link. -/
theorem onlyTadAndGroup1WriteLink : Obligations.OnlyTadAndGroup1WriteLink := by
  intro s t running stepped not_tad not_group1
  obtain ⟨u, spec, -, rfl⟩ := cycle_inversion running stepped
  have same_link := execute_link (executeForm_of_spec spec) not_tad not_group1
  exact (interruptCheck_l u).trans same_link

/-- Settles O55: memory-reference instructions write the two excluded addresses at most, the interrupt entry
word 0, and that only if `IE` and `IRQ` were true before the cycle. -/
theorem cycleMemoryFrame : Obligations.CycleMemoryFrame := by
  intro s t a running stepped not_pointer not_target not_saved
  obtain ⟨u, spec, -, rfl⟩ := cycle_inversion running stepped
  have form := executeForm_of_spec spec
  have not_stored (memory_reference : (s.mem.read s.pc).toNat / 512 < 6) :
      ¬StoresTo (s.mem.read s.pc) (specFetched s) a := by
    rintro (⟨increments, pointer⟩ | target)
    · exact not_pointer ⟨memory_reference, increments, pointer⟩
    · exact not_target target
  rw [interruptCheck_read, execute_mem form not_stored]
  · rfl
  · intro takes at_zero
    obtain ⟨enabled, requested⟩ := enabled_of_specTakes form takes
    exact not_saved ⟨enabled, requested, at_zero⟩

/-- Settles O54: the frame of the cycle (O55) with no address of a memory reference to exclude. -/
theorem iotAndOperateKeepMemory : Obligations.IotAndOperateKeepMemory := by
  intro s t running stepped opcode a kept
  refine cycleMemoryFrame s t a running stepped (fun ⟨memory_reference, _⟩ => by omega)
    (fun ⟨_, stores, _⟩ => by omega) ?_
  rintro ⟨enabled, requested, at_zero⟩
  simp [enabled, requested, at_zero] at kept

/-- Settles O43: with no request the check changes nothing, and the execute step leaves `PC` as the table says. -/
theorem pcAfterCycle : Obligations.PcAfterCycle := by
  intro s t running no_request stepped
  obtain ⟨u, spec, -, rfl⟩ := cycle_inversion running stepped
  rw [interruptCheck_eq_self (not_specTakes_of_execute (executeForm_of_spec spec) (.inr no_request)),
    execute_pc spec]

/-- Settles O46: the check takes no interrupt unless `IE` and `IRQ` were true before the cycle. -/
theorem maskedInterruptIsHeld : Obligations.MaskedInterruptIsHeld := by
  intro s running masked _
  obtain ⟨u, spec, -, executed, stepped⟩ := step_of_running running
  rw [stepped, executed,
    interruptCheck_eq_self (not_specTakes_of_execute (executeForm_of_spec spec) masked)]

/-- Settles O3: memory stays canonical under every write, `DE` and a halt are read off the word in `IR`, and with
`DE` set the check changes nothing, so the `IE` of ION stays. -/
theorem stepKeepsMachineInvariant : Obligations.StepKeepsMachineInvariant := by
  intro s t inv stepped
  cases running : s.run with
  | false =>
    rw [step_of_halted running] at stepped
    exact Host.Outcome.next.inj stepped ▸ inv
  | true =>
    obtain ⟨wf, -, -, -⟩ := inv
    obtain ⟨recorded, -⟩ := cycleRecordsFetch s t running stepped
    have de_iff := deferredEnableMarksIon s t running stepped
    have halt_iff := onlyHaltWordsHalt s t running stepped
    obtain ⟨u, spec, keeps_wf, rfl⟩ := cycle_inversion running stepped
    refine ⟨interruptCheck_mem_wf (keeps_wf wf), by rwa [recorded], fun deferred => ?_,
      by rw [recorded]; exact halt_iff.mp⟩
    rw [interruptCheck_de] at deferred
    rw [interruptCheck_eq_self]
    · exact ie_of_de (executeForm_of_spec spec) rfl deferred
    · rintro ⟨no_de, -, -⟩
      exact Bool.false_ne_true (no_de.symm.trans deferred)

end Sys2Proof
end

section
/-! SUPPORT and PROOF. Memory as a canonical list (20_memory.md section 1), the environment's writes of it
(R69, R70), reset and launch, the auto-index range, and the carry of TAD. -/

namespace Sys2Proof.Machine

/-! ### The canonical form is unique -/

theorem Memory.lookup_of_lt {lo a : Nat} (m : Memory) (rising : Memory.risingFrom lo m = true)
    (below : a < lo) : Memory.lookup m a = Memory.unlisted := by
  induction m generalizing lo with
  | nil => rfl
  | cons c m ih =>
    obtain ⟨b, v⟩ := c
    obtain ⟨lo_le, rest⟩ := Bool.and_eq_true_iff.mp rising
    have lo_le := of_decide_eq_true lo_le
    rw [Memory.lookup, if_neg (by omega)]
    exact ih rest (by omega)

theorem Memory.lookup_of_all_lt {hi a : Nat} (m : Memory) (bounded : ∀ c ∈ m, c.1 < hi) (above : hi ≤ a) :
    Memory.lookup m a = Memory.unlisted := by
  induction m with
  | nil => rfl
  | cons c m ih =>
    obtain ⟨b, v⟩ := c
    have b_lt : b < hi := bounded (b, v) List.mem_cons_self
    rw [Memory.lookup, if_neg (by omega)]
    exact ih fun c mem => bounded c (List.mem_cons_of_mem _ mem)

/-- The head of a canonical list is its first address that does not read as an unlisted one. -/
theorem Memory.eq_of_lookup_eq {lo : Nat} (m m' : Memory) (rising : Memory.risingFrom lo m = true)
    (rising' : Memory.risingFrom lo m' = true) (listed : ∀ c ∈ m, c.2 ≠ Memory.unlisted)
    (listed' : ∀ c ∈ m', c.2 ≠ Memory.unlisted)
    (same : ∀ a, Memory.lookup m a = Memory.lookup m' a) : m = m' := by
  induction m generalizing lo m' with
  | nil =>
    cases m' with
    | nil => rfl
    | cons c m' =>
      have head := same c.1
      rw [Memory.lookup, Memory.lookup, if_pos rfl] at head
      exact absurd head.symm (listed' c List.mem_cons_self)
  | cons c m ih =>
    obtain ⟨a, v⟩ := c
    cases m' with
    | nil =>
      have head := same a
      rw [Memory.lookup, Memory.lookup, if_pos rfl] at head
      exact absurd head (listed (a, v) List.mem_cons_self)
    | cons c' m' =>
      obtain ⟨b, w⟩ := c'
      obtain ⟨-, rest⟩ := Bool.and_eq_true_iff.mp rising
      obtain ⟨-, rest'⟩ := Bool.and_eq_true_iff.mp rising'
      have head := same a
      have head' := same b
      simp only [Memory.lookup, if_true] at head head'
      have same_address : a = b := by
        rcases Nat.lt_trichotomy a b with a_lt | a_eq | b_lt
        · rw [if_neg (by omega), Memory.lookup_of_lt m' rest' (by omega)] at head
          exact absurd head (listed (a, v) List.mem_cons_self)
        · exact a_eq
        · rw [if_neg (by omega), Memory.lookup_of_lt m rest (by omega)] at head'
          exact absurd head'.symm (listed' (b, w) List.mem_cons_self)
      subst same_address
      rw [if_pos rfl] at head
      have same_rest (x : Nat) : Memory.lookup m x = Memory.lookup m' x := by
        by_cases at_head : a = x
        · rw [← at_head, Memory.lookup_of_lt m rest (by omega), Memory.lookup_of_lt m' rest' (by omega)]
        · simpa only [Memory.lookup, if_neg at_head] using same x
      rw [head, ih m' rest rest' (fun c mem => listed c (List.mem_cons_of_mem _ mem))
        (fun c mem => listed' c (List.mem_cons_of_mem _ mem)) same_rest]

theorem Memory.wf_iff (m : Memory) :
    m.wf = true ↔
      Memory.risingFrom 0 m = true ∧ (∀ c ∈ m, c.1 < 4096) ∧ ∀ c ∈ m, c.2 ≠ Memory.unlisted := by
  simp [Memory.wf, List.all_eq_true, forall_and]

/-- An address of a word is below 4096, and a canonical list holds no other one. -/
theorem Memory.lookup_eq_of_read_eq {m m' : Memory} (bounded : ∀ c ∈ m, c.1 < 4096)
    (bounded' : ∀ c ∈ m', c.1 < 4096) (same : ∀ a, m.read a = m'.read a) (a : Nat) :
    Memory.lookup m a = Memory.lookup m' a := by
  by_cases in_range : a < 4096
  · have read := same (mask12 a)
    rwa [Memory.read, Memory.read, mask12, BitVec.toNat_ofNat, Nat.mod_eq_of_lt in_range] at read
  · rw [Memory.lookup_of_all_lt m bounded (by omega), Memory.lookup_of_all_lt m' bounded' (by omega)]

/-! ### `load_image` -/

theorem mask12_toNat {n : Nat} (in_range : n < 4096) : (mask12 n).toNat = n := by
  rw [mask12, BitVec.toNat_ofNat, Nat.mod_eq_of_lt in_range]

theorem Memory.wf_writeList (m : Memory) (start : Nat) (words : List Word) (wf : m.wf = true) :
    (m.writeList start words).wf = true := by
  induction words generalizing m start with
  | nil => exact wf
  | cons v words ih => exact ih _ _ (Memory.wf_write m _ v wf)

theorem Memory.read_writeList_outside (m : Memory) (start : Nat) (words : List Word) {a : Word}
    (fits : start + words.length ≤ 4096) (outside : a.toNat < start ∨ start + words.length ≤ a.toNat) :
    (m.writeList start words).read a = m.read a := by
  induction words generalizing m start with
  | nil => rfl
  | cons v words ih =>
    rw [List.length_cons] at fits outside
    have not_start : a ≠ mask12 start := by
      rintro rfl
      rw [mask12_toNat (by omega)] at outside
      omega
    rw [Memory.writeList, ih _ (start + 1) (by omega) (by omega), Memory.read_write_other m v not_start]

theorem Memory.read_writeList_inside (m : Memory) (start : Nat) (words : List Word) {i : Nat} {v : Word}
    (fits : start + words.length ≤ 4096) (word : words[i]? = some v) :
    (m.writeList start words).read (mask12 (start + i)) = v := by
  induction words generalizing m start i with
  | nil => cases word
  | cons w words ih =>
    rw [List.length_cons] at fits
    cases i with
    | zero =>
      obtain rfl := Option.some.inj word
      have later : (mask12 start).toNat < start + 1 := by rw [mask12_toNat (by omega)]; omega
      change ((m.write (mask12 start) w).writeList (start + 1) words).read (mask12 start) = w
      rw [Memory.read_writeList_outside _ (start + 1) words (by omega) (.inl later), Memory.read_write_same]
    | succ i =>
      have word := ih (m.write (mask12 start) w) (start + 1) (by omega) word
      rwa [Nat.succ_add_eq_add_succ] at word

theorem loadImage_of_fits {words : List Word} {start : Nat} (s : State)
    (fits : start + words.length ≤ 4096) :
    loadImage words start s = .next (s.setMem (s.mem.writeList start words)) :=
  if_pos fits

theorem loadImage_of_not_fits {words : List Word} {start : Nat} (s : State)
    (too_long : 4096 < start + words.length) : loadImage words start s = .refused .imageDoesNotFit :=
  if_neg (by omega)

/-! ### The machine invariant outside the cycle -/

/-- The invariant reads memory, `IR`, `DE`, `IE` and `RUN`, and of memory its form only. -/
theorem machineInv_of_same {s t : State} (inv : MachineInv s) (wf : t.mem.wf = true) (ir : t.ir = s.ir)
    (de : t.de = s.de) (ie : t.ie = s.ie) (run : t.run = s.run) : MachineInv t := by
  obtain ⟨-, mark, enabled, halt⟩ := inv
  rw [MachineInv, ir, de, ie, run]
  exact ⟨wf, mark, enabled, halt⟩

/-- After reset `DE` is clear, `IR` holds no ION, and the machine runs. -/
theorem machineInv_reset {mem : Memory} (wf : mem.wf = true) : MachineInv (State.reset.setMem mem) :=
  have mark : State.reset.de = true ↔ State.reset.ir = ionWord := by decide
  ⟨wf, mark, fun deferred => absurd deferred Bool.false_ne_true,
    fun halted => absurd halted.symm Bool.false_ne_true⟩

end Sys2Proof.Machine

namespace Sys2Proof

open Machine

/-- Settles O10: reading fixes the head of a canonical list, and then its rest. -/
theorem canonicalMemoryIsUnique : Obligations.CanonicalMemoryIsUnique := by
  intro m m' wf wf' same
  obtain ⟨rising, bounded, listed⟩ := (Memory.wf_iff m).mp wf
  obtain ⟨rising', bounded', listed'⟩ := (Memory.wf_iff m').mp wf'
  exact Memory.eq_of_lookup_eq m m' rising rising' listed listed'
    (Memory.lookup_eq_of_read_eq bounded bounded' same)

/-- Settles O12: the stores go to ascending addresses below 4096, so no store hits an earlier word's address. -/
theorem loadImageStoresWords : Obligations.LoadImageStoresWords := fun words start s =>
  ⟨fun fits => ⟨_, loadImage_of_fits s fits, rfl,
      fun _ _ word => Memory.read_writeList_inside s.mem start words fits word,
      fun _ outside => Memory.read_writeList_outside s.mem start words fits outside⟩,
    loadImage_of_not_fits s⟩

/-- Settles O1: reset replaces every register by the constant of the reset state. -/
theorem resetSetsRegistersAndKeepsMemory : Obligations.ResetSetsRegistersAndKeepsMemory :=
  fun _ => ⟨rfl, rfl⟩

/-- Settles O2: a launch differs from the reset state in `PC` and memory, of which the invariant reads the form. -/
theorem launchEstablishesInvariant : Obligations.LaunchEstablishesInvariant :=
  ⟨machineInv_reset Memory.wf_nil, fun _ _ wf =>
    machineInv_of_same (machineInv_reset wf) wf rfl rfl rfl rfl⟩

/-- Settles O4: reset starts afresh with the same memory, the other operations write memory or an input. -/
theorem environmentKeepsMachineInvariant : Obligations.EnvironmentKeepsMachineInvariant := by
  intro a s t not_step inv performed
  have ⟨wf, _⟩ := inv
  cases a with
  | reset =>
    cases performed
    exact machineInv_reset wf
  | memoryClear =>
    cases performed
    exact machineInv_of_same inv Memory.wf_nil rfl rfl rfl rfl
  | loadImage words start =>
    by_cases fits : start + words.length ≤ 4096
    · cases (loadImage_of_fits s fits).symm.trans performed
      exact machineInv_of_same inv (Memory.wf_writeList s.mem start words wf) rfl rfl rfl rfl
    · cases (loadImage_of_not_fits s (by omega)).symm.trans performed
  | step => exact absurd rfl not_step
  | writeSr v =>
    cases performed
    exact machineInv_of_same inv wf rfl rfl rfl rfl
  | writeIrq b =>
    cases performed
    exact machineInv_of_same inv wf rfl rfl rfl rfl

/-- Settles O14: the parameters are 8 and 15, and the value used is read before the cell is written. -/
theorem autoIndexRangeIsEightCells : Obligations.AutoIndexRangeIsEightCells := by
  intro m s
  have increments_iff : specAutoIndexes m s = true ↔
      m.indirect = true ∧ 8 ≤ (specDirect m s.lpc).toNat ∧ (specDirect m s.lpc).toNat ≤ 15 := by
    rw [specAutoIndexes, Bool.and_eq_true, decide_eq_true_iff]
    exact Iff.rfl
  rw [autoIncrements_eq_specAutoIndexes]
  refine ⟨increments_iff, fun indirect lower upper => ⟨?cell, ?address⟩⟩
  case cell =>
    rw [resolve_read_eq_readAfterEa]
    exact if_pos ⟨increments_iff.mpr ⟨indirect, lower, upper⟩, rfl⟩
  case address =>
    rw [effectiveAddress_eq_specEa]
    exact if_pos indirect

/-- Settles O17: the 13-bit sum modulo 8192 splits into the 12-bit sum and the link changed by the carry. -/
theorem tadCarryComplementsLink : Obligations.TadCarryComplementsLink := by
  intro m s
  generalize operand : readAfterEa m s (effectiveAddress m s) = v
  have ac_lt := s.ac.isLt
  have v_lt := v.isLt
  have l_lt := s.l.isLt
  refine ⟨_, operand ▸ exec_tad_eq s m, ?sum, fun carry => ?complemented, fun no_carry => ?kept⟩
  case sum =>
    change BitVec.ofNat 12 ((s.l.toNat * 4096 + s.ac.toNat + v.toNat) % 8192 % 4096) = s.ac + v
    bv_omega
  case complemented =>
    change BitVec.ofNat 1 ((s.l.toNat * 4096 + s.ac.toNat + v.toNat) % 8192 / 4096) = ~~~s.l
    bv_omega
  case kept =>
    change BitVec.ofNat 1 ((s.l.toNat * 4096 + s.ac.toNat + v.toNat) % 8192 / 4096) = s.l
    bv_omega

end Sys2Proof
end

section
/-! SUPPORT and PROOF. Runs and the end of a run (44_cycle_scheduler.md R198, R205), and the interrupt system
over more than one cycle (60_exceptions.md R219, R220, R222). -/

namespace Sys2Proof.Machine

variable {s t u : State}

/-! ### Runs -/

theorem runSteps_of_halted (halted : s.run = false) (n : Nat) : runSteps n s = .next s := by
  induction n with
  | zero => rfl
  | succ n ih => rw [runSteps_succ n (step_of_halted halted), ih]

theorem runUntilHalt_of_halted (halted : s.run = false) (n : Nat) : runUntilHalt n s = some s := by
  cases n <;> rw [runUntilHalt, halted] <;> rfl

theorem runUntilHalt_zero_of_running (running : s.run = true) : runUntilHalt 0 s = none := by
  rw [runUntilHalt, running]
  rfl

theorem runUntilHalt_succ (n : Nat) (running : s.run = true) (stepped : step s = .next t) :
    runUntilHalt (n + 1) s = runUntilHalt n t := by
  rw [runUntilHalt, running, stepped]
  rfl

theorem runSteps_two (first_step : step s = .next t) (second_step : step t = .next u) : runSteps 2 s = .next u := by
  rw [runSteps_succ 1 first_step, runSteps_succ 0 second_step]
  rfl

/-! ### The return from an interrupt: JMP I 0 -/

theorem decode_returnWord : decode 0o5400#12 = .jmp ⟨true, false, 0⟩ := by
  decide

/-- Word 0 is no auto-index cell, so `EA()` of JMP I 0 writes nothing. -/
theorem resolve_returnOperand (s : State) : resolve ⟨true, false, 0⟩ s = s := rfl

theorem exec_return (s : State) :
    exec (.jmp ⟨true, false, 0⟩) s = .next { s with pc := s.mem.read 0 } := by
  rw [exec_jmp_eq, resolve_returnOperand]
  rfl

/-- The state after the execute step of JMP I 0 at `s`. -/
def afterReturn (s : State) : State := { specFetched s with pc := s.mem.read 0 }

theorem step_of_return (running : s.run = true) (word : s.mem.read s.pc = 0o5400#12) :
    step s = .next (afterReturn s).interruptCheck := by
  refine step_eq_interruptCheck running ?_
  rw [word, decode_returnWord, exec_return]
  rfl

/-- Saving in word 0 what word 0 holds leaves every word as it is. -/
theorem read_interruptEntry_of_saved (saved : s.pc = s.mem.read 0) (a : Word) :
    s.interruptEntry.mem.read a = s.mem.read a := by
  rw [State.interruptEntry_mem, Memory.read_write]
  split
  next at_zero => rw [at_zero, saved]
  next => rfl

end Sys2Proof.Machine

namespace Sys2Proof

open Machine

/-- Settles O42: a step in HALTED answers the same state, so every further one does. -/
theorem haltedIsTerminal : Obligations.HaltedIsTerminal := fun n _ halted =>
  ⟨step_of_halted halted, runSteps_of_halted halted n, runUntilHalt_of_halted halted n⟩

/-- Settles O44, by induction on the bound: either the machine is halted already, and nothing changes, or the run
goes on from the next state. -/
theorem runUntilHaltStopsAtHalt : Obligations.RunUntilHaltStopsAtHalt := by
  intro n k s t ended
  induction n generalizing s with
  | zero =>
    cases running : s.run with
    | false =>
      cases (runUntilHalt_of_halted running 0).symm.trans ended
      exact ⟨running, rfl, runUntilHalt_of_halted running _⟩
    | true => cases (runUntilHalt_zero_of_running running).symm.trans ended
  | succ n ih =>
    cases running : s.run with
    | false =>
      cases (runUntilHalt_of_halted running (n + 1)).symm.trans ended
      exact ⟨running, runSteps_of_halted running _, runUntilHalt_of_halted running _⟩
    | true =>
      obtain ⟨u, stepped⟩ := step_completes s
      rw [runUntilHalt_succ n running stepped] at ended
      rw [Nat.add_right_comm, runUntilHalt_succ (n + k) running stepped, runSteps_succ n stepped]
      exact ih u ended

/-- Settles O48: the ION cycle ends without an entry (O22), and at the next one `IE` and `IRQ` are true (O45). -/
theorem interruptLatencyIsOneInstruction : Obligations.InterruptLatencyIsOneInstruction := by
  intro s running requested word not_ion not_iof
  have first_step := step_of_ion running word
  obtain ⟨u, t, executed, entry, second_step⟩ :=
    interruptEntryAfterInstruction { specFetched s with ie := true, de := true } running rfl requested
      not_ion not_iof
  exact ⟨u, t, first_step, executed, entry, runSteps_two first_step second_step⟩

/-- Settles O49: JMP I 0 goes to the saved address and writes no memory; an entry after it saves the address it
came from. -/
theorem interruptReturnSequence : Obligations.InterruptReturnSequence := by
  intro s running word return_word
  have first_step := step_of_ion running word
  have second_step := step_of_return (s := { specFetched s with ie := true, de := true }) running return_word
  refine ⟨fun no_request => ?_, fun requested => ⟨_, runSteps_two first_step second_step, ?_⟩⟩
  · have not_taken : ¬specTakes (afterReturn { specFetched s with ie := true, de := true }) :=
      not_specTakes_of_masked (.inr no_request)
    rw [runSteps_two first_step second_step, interruptCheck_eq_self not_taken, ← return_word]
    rfl
  · have takes : specTakes (afterReturn { specFetched s with ie := true, de := true }) :=
      ⟨rfl, rfl, requested⟩
    rw [interruptCheck_eq_interruptEntry takes]
    exact ⟨rfl, rfl, read_interruptEntry_of_saved rfl⟩

/-- Settles O50: the halting word keeps the flags of the check, so the entry is done (O45) and saves the `PC` of
the skip test (O43); the check keeps `RUN` false (O51). -/
theorem haltStillTakesInterrupt : Obligations.HaltStillTakesInterrupt := by
  intro s running enabled requested halt_word
  obtain ⟨group, even, -⟩ := (halt_mask_iff _).mp halt_word
  have opcode : (s.mem.read s.pc).toNat / 512 ≠ 6 := by omega
  obtain ⟨u, t, executed, entry, stepped⟩ :=
    interruptEntryAfterInstruction s running enabled requested (ne_ionWord opcode) (ne_iofWord opcode)
  obtain ⟨u', spec, -, executed', -⟩ := step_of_running running
  obtain rfl : u = u' := Host.Outcome.next.inj (executed.symm.trans executed')
  have halted : t.run = false := (onlyHaltWordsHalt s t running stepped).mpr halt_word
  obtain ⟨registers, saved, others⟩ := entry
  refine ⟨t, stepped, halted, by rw [registers], by rw [registers], ?_, fun a not_saved => ?_,
    runSteps_of_halted halted⟩
  · rw [saved, execute_pc spec, specPcAfter_group2 s group even]
  · exact (others a not_saved).trans (execute_mem (executeForm_of_spec spec) fun _ => by omega)

end Sys2Proof
end

section
/-! SUPPORT and PROOF. The two inputs (10_state.md R28, R29): which cycles can tell one value of `IRQ` or `SR`
from another. -/

namespace Sys2Proof.Machine

variable {s : State}

/-- The state with both inputs presented (R204). -/
def State.withInputs (s : State) (irq : Bool) (sr : Word) : State := { s with irq := irq, sr := sr }

theorem State.setIrq_eq_withInputs (s : State) (b : Bool) : s.setIrq b = s.withInputs b s.sr := rfl

theorem State.setSr_eq_withInputs (s : State) (v : Word) : s.setSr v = s.withInputs s.irq v := rfl

/-! ### The execute step -/

theorem resolve_withInputs (m : MemRef) (s : State) (b : Bool) (v : Word) :
    resolve m (s.withInputs b v) = (resolve m s).withInputs b v := by
  unfold resolve
  change applyIf (autoIncrements m s) _ _ = _
  cases autoIncrements m s <;> rfl

theorem specGroup2_withInputs (f : Group2Flags) (b : Bool) (v : Word) (switches : f.osr = true → v = s.sr) :
    specGroup2 f (s.withInputs b v) = (specGroup2 f s).withInputs b v := by
  unfold specGroup2
  cases osr : f.osr with
  | false => rfl
  | true => rw [switches osr]; rfl

/-- Only a group 2 instruction with the switch-OR flag reads an input, and it reads `SR`. -/
theorem exec_withInputs (i : Instr) (b : Bool) (v : Word)
    (switches : ∀ f, i.group2Flags? = some f → f.osr = true → v = s.sr) :
    exec i (s.withInputs b v) = mapNext (fun u => u.withInputs b v) (exec i s) := by
  cases instrForm i with
  | and m => rw [exec_and_eq, exec_and_eq, resolve_withInputs]; rfl
  | tad m => rw [exec_tad_eq, exec_tad_eq, resolve_withInputs]; rfl
  | isz m => rw [exec_isz_eq, exec_isz_eq, resolve_withInputs]; rfl
  | dca m => rw [exec_dca_eq, exec_dca_eq, resolve_withInputs]; rfl
  | jms m => rw [exec_jms_eq, exec_jms_eq, resolve_withInputs]; rfl
  | jmp m => rw [exec_jmp_eq, exec_jmp_eq, resolve_withInputs]; rfl
  | ion | iof | iot | claGroup3 => rfl
  | group1 flags => rw [group1Sequence _ _ s flags, group1Sequence _ _ _ flags]; rfl
  | group2 flags =>
    rw [exec_eq_specGroup2 s flags, exec_eq_specGroup2 _ flags, specGroup2_withInputs _ b v (switches _ flags)]
    rfl
  | opr3 cla ext => rw [exec_opr3_eq, exec_opr3_eq]; rfl

/-! ### The words that read the switches -/

theorem group2Flags_of_group1Flags {i : Instr} {f : Group1Flags} (flags : i.group1Flags? = some f) :
    i.group2Flags? = none := by
  cases i <;> cases flags <;> rfl

theorem group2Flags_group3Instr (cla : Bool) (ext : BitVec 6) :
    (group3Instr cla ext).group2Flags? = none := by
  unfold group3Instr
  split <;> rfl

/-- A word decodes to an instruction with group 2 flags only if it is a group 2 word, and to its own flags. -/
theorem group2Flags_decode {w : Word} {f : Group2Flags} (flags : (decode w).group2Flags? = some f) :
    w.toNat / 256 = 15 ∧ w.toNat % 2 = 0 ∧ f = specGroup2Flags w := by
  have form := decodeForm_decode w
  generalize decode w = i at form flags
  cases form with
  | group1 group => cases (group2Flags_of_group1Flags (group1Flags_toInstr _)).symm.trans flags
  | group2 group even =>
    exact ⟨group, even, (Option.some.inj ((group2Flags_toInstr _).symm.trans flags)).symm⟩
  | group3 group odd => cases (group2Flags_group3Instr _ _).symm.trans flags
  | _ => cases flags

/-! ### The cycle -/

/-- With the same request, the check decides alike. -/
theorem interruptCheck_withInputs_of_same_irq (u : State) (v : Word) :
    (u.withInputs u.irq v).interruptCheck = u.interruptCheck.withInputs u.irq v := by
  unfold State.interruptCheck
  change applyIf u.takesInterrupt _ _ = _
  cases u.takesInterrupt <;> rfl

/-- A cycle that began with `IE` false takes no interrupt, whatever the request. -/
theorem interruptCheck_withInputs_of_disabled {w : Word} {u : State} (form : ExecuteForm w s u)
    (disabled : s.ie = false) (b : Bool) (v : Word) :
    (u.withInputs b v).interruptCheck = u.interruptCheck.withInputs b v := by
  have not_open (no_de : u.de = false) (enabled : u.ie = true) : False := by
    have still := (execute_ie form enabled).resolve_left (by rw [no_de]; exact Bool.false_ne_true)
    exact Bool.false_ne_true (disabled.symm.trans still)
  have not_taken : ¬specTakes u := fun ⟨no_de, enabled, _⟩ => not_open no_de enabled
  have not_taken' : ¬specTakes (u.withInputs b v) := fun ⟨no_de, enabled, _⟩ => not_open no_de enabled
  rw [interruptCheck_eq_self not_taken, interruptCheck_eq_self not_taken']

/-- The word at `PC` is a group 2 word with the switch-OR flag (R179). -/
def ReadsSwitches (s : State) : Prop :=
  (s.mem.read s.pc).toNat / 256 = 15 ∧ (s.mem.read s.pc).toNat % 2 = 0 ∧
    (s.mem.read s.pc).getLsbD 2 = true

/-- Two values of the inputs give cycles that differ in the inputs only, if the word does not read a changed
`SR`, and the check no changed `IRQ`. -/
theorem step_withInputs (b : Bool) (v : Word) (switches : ReadsSwitches s → v = s.sr)
    (request : b = s.irq ∨ s.ie = false) :
    step (s.withInputs b v) = mapNext (fun t => t.withInputs b v) (step s) := by
  cases running : s.run with
  | false => rw [step_of_halted running, step_of_halted (s := s.withInputs b v) running]; rfl
  | true =>
    obtain ⟨u, spec, -, executed, stepped⟩ := step_of_running running
    have executed' : exec (decode (s.mem.read s.pc)) ((specFetched s).withInputs b v) =
        .next (u.withInputs b v) := by
      rw [exec_withInputs _ b v, executed]
      · rfl
      · intro f flags osr
        obtain ⟨group, even, rfl⟩ := group2Flags_decode flags
        exact switches ⟨group, even, osr⟩
    have same_check : (u.withInputs b v).interruptCheck = u.interruptCheck.withInputs b v := by
      obtain same | disabled := request
      · obtain ⟨same_irq, -⟩ := execute_inputs (executeForm_of_spec spec)
        rw [show b = u.irq from same.trans same_irq.symm]
        exact interruptCheck_withInputs_of_same_irq u v
      · exact interruptCheck_withInputs_of_disabled (executeForm_of_spec spec) disabled b v
    rw [step_eq_interruptCheck (s := s.withInputs b v) running executed', stepped, same_check]
    rfl

/-- R212: with `IE` false the cycle does not see the request. -/
theorem step_setIrq {t : State} (disabled : s.ie = false) (stepped : step s = .next t) (b : Bool) :
    step (s.setIrq b) = .next (t.setIrq b) := by
  obtain ⟨-, same_sr⟩ := cycleNeverWritesInputs s t stepped
  rw [State.setIrq_eq_withInputs, State.setIrq_eq_withInputs, same_sr,
    step_withInputs b s.sr (fun _ => rfl) (.inr disabled), stepped]
  rfl

/-! ### Runs -/

theorem runSteps_setIrq (n : Nat) (b : Bool)
    (disabled : ∀ k, k ≤ n → ∀ u, runSteps k s = .next u → u.ie = false) :
    runSteps n (s.setIrq b) = mapNext (fun u => u.setIrq b) (runSteps n s) := by
  induction n generalizing s with
  | zero => rfl
  | succ n ih =>
    obtain ⟨t, stepped⟩ := step_completes s
    rw [runSteps_succ n stepped, runSteps_succ n (step_setIrq (disabled 0 (Nat.zero_le _) s rfl) stepped b)]
    refine ih fun k k_le u ran => disabled (k + 1) (Nat.succ_le_succ k_le) u ?_
    rw [runSteps_succ k stepped, ran]

theorem runWith_irq_irrelevant (inputs others : List (Bool × Word)) (b : Bool)
    (same_switches : inputs.map Prod.snd = others.map Prod.snd)
    (disabled : ∀ k, k ≤ inputs.length → ∀ u, runWith (inputs.take k) s = .next u → u.ie = false) :
    ∃ t u, runWith inputs s = .next t ∧ runWith others (s.setIrq b) = .next u ∧ u = t.setIrq u.irq := by
  induction inputs generalizing s others b with
  | nil =>
    cases others with
    | nil => exact ⟨s, s.setIrq b, rfl, rfl, rfl⟩
    | cons other others => cases same_switches
  | cons input inputs ih =>
    cases others with
    | nil => cases same_switches
    | cons other others =>
      obtain ⟨irq, sr⟩ := input
      obtain ⟨irq', sr'⟩ := other
      obtain ⟨same_sr, same_rest⟩ := List.cons.inj same_switches
      obtain rfl : sr = sr' := same_sr
      have off : ((s.setIrq irq).setSr sr).ie = false := disabled 0 (Nat.zero_le _) s rfl
      obtain ⟨t, stepped⟩ := step_completes ((s.setIrq irq).setSr sr)
      have stepped' : step (((s.setIrq b).setIrq irq').setSr sr) = .next (t.setIrq irq') :=
        step_setIrq off stepped irq'
      rw [runWith_cons inputs stepped, runWith_cons others stepped']
      refine ih others irq' same_rest fun k k_le u ran => disabled (k + 1) (Nat.succ_le_succ k_le) u ?_
      rw [List.take_succ_cons, runWith_cons _ stepped, ran]

end Sys2Proof.Machine

namespace Sys2Proof

open Machine

/-- Settles O56, by induction over the cycles: each one that begins with `IE` false acts alike for both
requests. -/
theorem requestInvisibleWhileDisabled : Obligations.RequestInvisibleWhileDisabled := fun _ b =>
  ⟨fun n disabled => runSteps_setIrq n b disabled,
    fun inputs others same_switches disabled => runWith_irq_irrelevant inputs others b same_switches disabled⟩

/-- Settles O57: no other word reads `SR`, and the interrupt check reads the same `IRQ`. -/
theorem switchesSeenOnlyBySwitchOr : Obligations.SwitchesSeenOnlyBySwitchOr := by
  intro s v not_switch_or
  obtain ⟨t, stepped⟩ := step_completes s
  obtain ⟨same_irq, -⟩ := cycleNeverWritesInputs s t stepped
  rw [State.setSr_eq_withInputs, step_withInputs s.irq v (absurd · not_switch_or) (.inl rfl), stepped,
    ← same_irq]
  rfl

end Sys2Proof
end

section
/-! SUPPORT and PROOF. Short programs: the subroutine call and its return (41_memory_reference.md R128), and a
store over the next instruction (20_memory.md R67). -/

namespace Sys2Proof.Machine

variable {s t u : State} {m : MemRef}

/-- The cycle of a word that encodes a well-formed instruction (O6). -/
theorem step_of_encoded {i : Instr} (running : s.run = true) (word : s.mem.read s.pc = encode i)
    (wf : i.wellFormed = true) (executed : exec i (specFetched s) = .next u) :
    step s = .next u.interruptCheck := by
  refine step_eq_interruptCheck running ?_
  rw [word, decodeOfEncodeIsIdentity i wf, executed]

/-! ### The call -/

/-- The state after the execute step of JMS at `s`. -/
def afterCall (m : MemRef) (s : State) : State :=
  { specFetched s with
    pc := specEa m (specFetched s) + 1
    mem := (resolve m (specFetched s)).mem.write (specEa m (specFetched s)) (s.pc + 1) }

theorem step_of_call (running : s.run = true) (word : s.mem.read s.pc = encode (.jms m)) :
    step s = .next (afterCall m s).interruptCheck := by
  refine step_of_encoded running word rfl ?_
  rw [exec_jms_eq, effectiveAddress_eq_specEa]
  rfl

theorem afterCall_read (a : Word) :
    (afterCall m s).mem.read a =
      if a = specEa m (specFetched s) then s.pc + 1 else readAfterEa m (specFetched s) a :=
  resolve_write_read (specFetched s) m _ _ a

/-! ### The return -/

/-- The state after the execute step of JMP at `s`. -/
def afterJump (j : MemRef) (s : State) : State :=
  { specFetched s with pc := specEa j (specFetched s), mem := (resolve j (specFetched s)).mem }

theorem step_of_jump {j : MemRef} (running : s.run = true) (word : s.mem.read s.pc = encode (.jmp j)) :
    step s = .next (afterJump j s).interruptCheck := by
  refine step_of_encoded running word rfl ?_
  rw [exec_jmp_eq, effectiveAddress_eq_specEa]
  rfl

/-- An indirect JMP goes where the word at its direct address says. -/
theorem afterJump_pc {j : MemRef} (indirect : j.indirect = true) :
    (afterJump j s).pc = s.mem.read (specDirect j s.pc) :=
  if_pos indirect

/-- A jump changes its pointer cell at most. -/
theorem afterJump_read {j : MemRef} {a : Word} (not_pointer : a ≠ specDirect j s.pc) :
    (afterJump j s).mem.read a = s.mem.read a :=
  (resolve_read_eq_readAfterEa (specFetched s) j a).trans (if_neg fun pointer => not_pointer pointer.2)

theorem word_succ_ne (a : Word) : a + 1 ≠ a := by
  bv_omega

/-! ### The store -/

/-- The state after the execute step of DCA at `s`. -/
def afterStore (m : MemRef) (s : State) : State :=
  { specFetched s with
    ac := 0, mem := (resolve m (specFetched s)).mem.write (specEa m (specFetched s)) s.ac }

theorem step_of_store (running : s.run = true) (word : s.mem.read s.pc = encode (.dca m)) :
    step s = .next (afterStore m s).interruptCheck := by
  refine step_of_encoded running word rfl ?_
  rw [exec_dca_eq, effectiveAddress_eq_specEa]
  rfl

end Sys2Proof.Machine

namespace Sys2Proof

open Machine

/-- The call of O58: with an interrupt, the entry saves the address the call went to. -/
theorem call_step {s : State} {m : MemRef} {x : Word} (running : s.run = true)
    (word : s.mem.read s.pc = encode (.jms m)) (target : x = specEa m (specFetched s)) :
    ∃ t, step s = .next t ∧ t.ac = s.ac ∧ t.l = s.l ∧
      (s.ie = false ∨ s.irq = false → t.pc = x + 1 ∧ t.mem.read x = s.pc + 1) ∧
      (s.ie = true → s.irq = true →
        t.pc = 1 ∧ t.mem.read 0 = x + 1 ∧ (x ≠ 0 → t.mem.read x = s.pc + 1)) := by
  subst target
  have stored : (afterCall m s).mem.read (specEa m (specFetched s)) = s.pc + 1 := by
    rw [afterCall_read, if_pos rfl]
  refine ⟨_, step_of_call running word, interruptCheck_ac _, interruptCheck_l _, fun masked => ?_,
    fun enabled requested => ?_⟩
  · rw [interruptCheck_eq_self (s := afterCall m s) (not_specTakes_of_masked masked)]
    exact ⟨rfl, stored⟩
  · have takes : specTakes (afterCall m s) := ⟨rfl, enabled, requested⟩
    rw [interruptCheck_eq_interruptEntry takes]
    obtain ⟨-, saved, others⟩ := entryOf_interruptEntry (s := afterCall m s)
    exact ⟨rfl, saved, fun not_zero => (others _ not_zero).trans stored⟩

/-- The return of O58, from any state in which the pointer cell holds the return address. -/
theorem return_step {r : State} {j : MemRef} {x back : Word} (running : r.run = true)
    (word : r.mem.read r.pc = encode (.jmp j)) (indirect : j.indirect = true)
    (pointer : specDirect j r.pc = x) (holds : r.mem.read x = back) :
    ∃ u, step r = .next u ∧ u.ac = r.ac ∧ u.l = r.l ∧
      (r.ie = false ∨ r.irq = false → u.pc = back) ∧
      (r.ie = true → r.irq = true → u.pc = 1 ∧ u.mem.read 0 = back) := by
  have returned : (afterJump j r).pc = back := by rw [afterJump_pc indirect, pointer, holds]
  refine ⟨_, step_of_jump running word, interruptCheck_ac _, interruptCheck_l _, fun masked => ?_,
    fun enabled requested => ?_⟩
  · rw [interruptCheck_eq_self (s := afterJump j r) (not_specTakes_of_masked masked)]
    exact returned
  · have takes : specTakes (afterJump j r) := ⟨rfl, enabled, requested⟩
    rw [interruptCheck_eq_interruptEntry takes]
    obtain ⟨-, saved, -⟩ := entryOf_interruptEntry (s := afterJump j r)
    exact ⟨rfl, saved.trans returned⟩

/-- The two steps of O58 without an interrupt: the call, and the return from the word after `x`. -/
theorem call_and_return {s : State} {m j : MemRef} {x : Word} (running : s.run = true)
    (word : s.mem.read s.pc = encode (.jms m)) (target : x = specEa m (specFetched s))
    (masked : s.ie = false ∨ s.irq = false) (indirect : j.indirect = true)
    (pointer : specDirect j (x + 1) = x)
    (return_word : readAfterEa m (specFetched s) (x + 1) = encode (.jmp j)) :
    ∃ t, runSteps 2 s = .next t ∧ t.pc = s.pc + 1 ∧ t.ac = s.ac ∧ t.l = s.l ∧
      ∀ a, a ≠ x → t.mem.read a = readAfterEa m (specFetched s) a := by
  subst target
  have called := step_of_call running word
  rw [interruptCheck_eq_self (s := afterCall m s) (not_specTakes_of_masked masked)] at called
  have fetched : (afterCall m s).mem.read (afterCall m s).pc = encode (.jmp j) := by
    rw [← return_word, afterCall_read]
    exact if_neg (word_succ_ne _)
  have returned := step_of_jump (s := afterCall m s) running fetched
  rw [interruptCheck_eq_self (s := afterJump j (afterCall m s)) (not_specTakes_of_masked masked)] at returned
  have stored : (afterCall m s).mem.read (specEa m (specFetched s)) = s.pc + 1 := by
    rw [afterCall_read, if_pos rfl]
  have at_target : specDirect j (afterCall m s).pc = specEa m (specFetched s) := pointer
  refine ⟨_, runSteps_two called returned, ?_, rfl, rfl, fun a not_target => ?_⟩
  · rw [afterJump_pc indirect, at_target, stored]
  · rw [afterJump_read (fun at_pointer => not_target (at_pointer.trans at_target)), afterCall_read,
      if_neg not_target]

/-- Settles O58: the call stores the return address at its target, an indirect JMP through that word goes there,
and neither reads or writes `AC` or `L`. -/
theorem subroutineCallReturns : Obligations.SubroutineCallReturns :=
  fun _ _ _ running word target =>
    ⟨call_step running word target,
      fun _ _ running' word' indirect pointer holds => return_step running' word' indirect pointer holds,
      fun _ masked indirect pointer return_word =>
        call_and_return running word target masked indirect pointer return_word⟩

/-- Settles O59: DCA leaves `PC` at the next word, where it has just stored `AC`, and the next cycle records that
word (O41). -/
theorem storedWordIsFetchedNext : Obligations.StoredWordIsFetchedNext := by
  intro s m running no_request word target
  have stored := step_of_store running word
  rw [interruptCheck_eq_self (s := afterStore m s) (not_specTakes_of_masked (.inr no_request))] at stored
  have next_word : (afterStore m s).mem.read (s.pc + 1) = s.ac := by
    rw [← target]
    exact Memory.read_write_same _ _ _
  obtain ⟨t, fetched⟩ := step_completes (afterStore m s)
  obtain ⟨same_ir, same_lpc⟩ := cycleRecordsFetch (afterStore m s) t running fetched
  exact ⟨t, runSteps_two stored fetched, same_ir.trans next_word, same_lpc⟩

end Sys2Proof
end
